-- ==== Sys2Proof/Word.lean ====
section
/-! DEFINITION. The words of the machine: 32-bit registers and addresses, 8-bit bytes, 4-bit register numbers. -/

namespace Sys2Proof

/-- A general register, a status register, an address, an ARM-state instruction (R5, R20, R66, R90). -/
abbrev Word := BitVec 32

/-- One byte of memory (R5). -/
abbrev Byte := BitVec 8

/-- A register field of an encoded instruction: R0 to R15 (R20). -/
abbrev RegNum := BitVec 4

end Sys2Proof
end

