-- ==== Sys2Proof/Config.lean ====
section
/-! DEFINITION. What an implementation fixes (the parameters of R5 that the spec leaves OPEN) and the free values: opaque
constants, of which no proof can learn anything. -/

namespace Sys2Proof

/-- The widths of a memory access (R67). -/
inductive AccessSize where
  | byte
  | half
  | word
deriving DecidableEq, Repr

/-- How many bytes an access touches. -/
def AccessSize.bytes : AccessSize → Nat
  | .byte => 1
  | .half => 2
  | .word => 4

/-- What a range of existing addresses is (R69): plain memory, whose reads return the last value written, or a device,
whose reads are answered by an oracle. -/
inductive RegionKind where
  | memory
  | device
deriving DecidableEq, Repr

/-- A range of addresses that exist: `size` bytes from `base` (R71). -/
structure Region where
  base : Nat
  size : Nat
  kind : RegionKind
deriving DecidableEq, Repr

/-- The address lies in the range. -/
def Region.contains (r : Region) (a : Nat) : Bool := decide (r.base ≤ a) && decide (a < r.base + r.size)

/-- The parameters of R5 that the spec leaves OPEN. They are plain data in the state, so that a statement over every state
is a statement over every setting, and so that a run can be evaluated at any setting. No instruction changes them. -/
structure Platform where
  /-- `MemMap` (R69, R71): the ranges that exist. -/
  regions : List Region
  /-- `ABORT_BASE` (R183): `true` is `updated`, the base is written back although the access aborted. -/
  abortBaseUpdated : Bool
  /-- `IRQ_ENTRY_SETS_F` (R257). -/
  irqEntrySetsF : Bool
deriving DecidableEq, Repr

/-- One access to a device range, as the core performs it (R69). -/
inductive IoEvent where
  | read (addr : Word) (size : AccessSize)
  | write (addr : Word) (size : AccessSize) (value : Word)
deriving DecidableEq, Repr

/-- FREE VALUE (log 12). The n-th unspecified value a run draws: a flag left meaningless (R247), a reserved field as read
(R35), a register of an aborted LDM (R217), what a reset during a run leaves (R301). -/
opaque Config.freeWord : Nat → Word

/-- FREE VALUE (log 24). What a device answers to a read (R69), given every device access made before it, newest first. -/
opaque Config.deviceRead : List IoEvent → Word → AccessSize → Word

end Sys2Proof
end

