-- ==== Sys2Proof/Syntax.lean ====
section
/-! DEFINITION. The syntax: one constructor of `Instr` for each row of spec/opcode_table.json, in the table's order. -/

namespace Sys2Proof

/-- The fifteen conditions of Tab. 4 (R121), in the order of their codes. `cs` is also written HS, `cc` also LO. -/
inductive Cond where
  | eq | ne | cs | cc | mi | pl | vs | vc | hi | ls | ge | lt | gt | le | al
deriving DecidableEq, Repr

/-- The four kinds of shift (R93). -/
inductive ShiftType where
  | lsl | lsr | asr | ror
deriving DecidableEq, Repr

/-- The four combinations of P and W in a halfword or signed transfer (R182): P = 1 W = 0, P = 1 W = 1, P = 0 W = 0, and P = 0
W = 1, which is UNPREDICTABLE (`Restriction.postWriteback`) and like every such combination advances when its condition fails. -/
inductive HsIndex where
  | offset | preIndexed | postIndexed | postIndexedW
deriving DecidableEq, Repr

/-- The P bit of the form. -/
def HsIndex.p : HsIndex → Bool
  | .offset => true
  | .preIndexed => true
  | .postIndexed => false
  | .postIndexedW => false

/-- The W bit of the form. -/
def HsIndex.w : HsIndex → Bool
  | .offset => false
  | .preIndexed => true
  | .postIndexed => false
  | .postIndexedW => true

/-- The base register is written back (R182: P = 0, or P = 1 with W = 1). -/
def HsIndex.writesBack : HsIndex → Bool
  | .offset => false
  | .preIndexed => true
  | .postIndexed => true
  | .postIndexedW => true

/-- The three layouts of a second operand (R93, R143). -/
inductive Operand2 where
  /-- An 8-bit constant rotated right by twice `rot` (R144). -/
  | imm (rot : BitVec 4) (imm8 : BitVec 8)
  /-- `Rm` shifted by a constant (R145). -/
  | shImm (amount : BitVec 5) (t : ShiftType) (rm : RegNum)
  /-- `Rm` shifted by the low byte of `Rs` (R146). -/
  | shReg (rs : RegNum) (t : ShiftType) (rm : RegNum)
deriving DecidableEq, Repr

/-- The offset of a word or byte transfer (R181). -/
inductive LsOffset where
  | imm (imm12 : BitVec 12)
  | reg (amount : BitVec 5) (t : ShiftType) (rm : RegNum)
deriving DecidableEq, Repr

/-- The offset of a halfword or signed transfer (R182). -/
inductive HsOffset where
  | imm (immH immL : BitVec 4)
  | reg (rm : RegNum)
deriving DecidableEq, Repr

/-- The ARM-state instructions. `c` is the condition (R90), `sf` the S bit, `u` adds the offset, `w` writes the base back,
`p` is the P bit; `spsr` is the R bit of MRS and MSR; the other names are the fields of R93 to R97. -/
inductive Instr where
  /-- AND, immediate second operand (R151). -/
  | andImm (c : Cond) (sf : Bool) (rn rd : RegNum) (rot : BitVec 4) (imm8 : BitVec 8)
  /-- AND, register shifted by an immediate (R151). -/
  | andShImm (c : Cond) (sf : Bool) (rn rd : RegNum) (amount : BitVec 5) (t : ShiftType) (rm : RegNum)
  /-- AND, register shifted by a register (R151). -/
  | andShReg (c : Cond) (sf : Bool) (rn rd rs : RegNum) (t : ShiftType) (rm : RegNum)
  /-- EOR, immediate second operand (R152). -/
  | eorImm (c : Cond) (sf : Bool) (rn rd : RegNum) (rot : BitVec 4) (imm8 : BitVec 8)
  /-- EOR, register shifted by an immediate (R152). -/
  | eorShImm (c : Cond) (sf : Bool) (rn rd : RegNum) (amount : BitVec 5) (t : ShiftType) (rm : RegNum)
  /-- EOR, register shifted by a register (R152). -/
  | eorShReg (c : Cond) (sf : Bool) (rn rd rs : RegNum) (t : ShiftType) (rm : RegNum)
  /-- SUB, immediate second operand (R153). -/
  | subImm (c : Cond) (sf : Bool) (rn rd : RegNum) (rot : BitVec 4) (imm8 : BitVec 8)
  /-- SUB, register shifted by an immediate (R153). -/
  | subShImm (c : Cond) (sf : Bool) (rn rd : RegNum) (amount : BitVec 5) (t : ShiftType) (rm : RegNum)
  /-- SUB, register shifted by a register (R153). -/
  | subShReg (c : Cond) (sf : Bool) (rn rd rs : RegNum) (t : ShiftType) (rm : RegNum)
  /-- RSB, immediate second operand (R154). -/
  | rsbImm (c : Cond) (sf : Bool) (rn rd : RegNum) (rot : BitVec 4) (imm8 : BitVec 8)
  /-- RSB, register shifted by an immediate (R154). -/
  | rsbShImm (c : Cond) (sf : Bool) (rn rd : RegNum) (amount : BitVec 5) (t : ShiftType) (rm : RegNum)
  /-- RSB, register shifted by a register (R154). -/
  | rsbShReg (c : Cond) (sf : Bool) (rn rd rs : RegNum) (t : ShiftType) (rm : RegNum)
  /-- ADD, immediate second operand (R155). -/
  | addImm (c : Cond) (sf : Bool) (rn rd : RegNum) (rot : BitVec 4) (imm8 : BitVec 8)
  /-- ADD, register shifted by an immediate (R155). -/
  | addShImm (c : Cond) (sf : Bool) (rn rd : RegNum) (amount : BitVec 5) (t : ShiftType) (rm : RegNum)
  /-- ADD, register shifted by a register (R155). -/
  | addShReg (c : Cond) (sf : Bool) (rn rd rs : RegNum) (t : ShiftType) (rm : RegNum)
  /-- ADC, immediate second operand (R156). -/
  | adcImm (c : Cond) (sf : Bool) (rn rd : RegNum) (rot : BitVec 4) (imm8 : BitVec 8)
  /-- ADC, register shifted by an immediate (R156). -/
  | adcShImm (c : Cond) (sf : Bool) (rn rd : RegNum) (amount : BitVec 5) (t : ShiftType) (rm : RegNum)
  /-- ADC, register shifted by a register (R156). -/
  | adcShReg (c : Cond) (sf : Bool) (rn rd rs : RegNum) (t : ShiftType) (rm : RegNum)
  /-- SBC, immediate second operand (R157). -/
  | sbcImm (c : Cond) (sf : Bool) (rn rd : RegNum) (rot : BitVec 4) (imm8 : BitVec 8)
  /-- SBC, register shifted by an immediate (R157). -/
  | sbcShImm (c : Cond) (sf : Bool) (rn rd : RegNum) (amount : BitVec 5) (t : ShiftType) (rm : RegNum)
  /-- SBC, register shifted by a register (R157). -/
  | sbcShReg (c : Cond) (sf : Bool) (rn rd rs : RegNum) (t : ShiftType) (rm : RegNum)
  /-- RSC, immediate second operand (R158). -/
  | rscImm (c : Cond) (sf : Bool) (rn rd : RegNum) (rot : BitVec 4) (imm8 : BitVec 8)
  /-- RSC, register shifted by an immediate (R158). -/
  | rscShImm (c : Cond) (sf : Bool) (rn rd : RegNum) (amount : BitVec 5) (t : ShiftType) (rm : RegNum)
  /-- RSC, register shifted by a register (R158). -/
  | rscShReg (c : Cond) (sf : Bool) (rn rd rs : RegNum) (t : ShiftType) (rm : RegNum)
  /-- TST, immediate second operand (R159). -/
  | tstImm (c : Cond) (rn : RegNum) (rot : BitVec 4) (imm8 : BitVec 8)
  /-- TST, register shifted by an immediate (R159). -/
  | tstShImm (c : Cond) (rn : RegNum) (amount : BitVec 5) (t : ShiftType) (rm : RegNum)
  /-- TST, register shifted by a register (R159). -/
  | tstShReg (c : Cond) (rn rs : RegNum) (t : ShiftType) (rm : RegNum)
  /-- TEQ, immediate second operand (R160). -/
  | teqImm (c : Cond) (rn : RegNum) (rot : BitVec 4) (imm8 : BitVec 8)
  /-- TEQ, register shifted by an immediate (R160). -/
  | teqShImm (c : Cond) (rn : RegNum) (amount : BitVec 5) (t : ShiftType) (rm : RegNum)
  /-- TEQ, register shifted by a register (R160). -/
  | teqShReg (c : Cond) (rn rs : RegNum) (t : ShiftType) (rm : RegNum)
  /-- CMP, immediate second operand (R161). -/
  | cmpImm (c : Cond) (rn : RegNum) (rot : BitVec 4) (imm8 : BitVec 8)
  /-- CMP, register shifted by an immediate (R161). -/
  | cmpShImm (c : Cond) (rn : RegNum) (amount : BitVec 5) (t : ShiftType) (rm : RegNum)
  /-- CMP, register shifted by a register (R161). -/
  | cmpShReg (c : Cond) (rn rs : RegNum) (t : ShiftType) (rm : RegNum)
  /-- CMN, immediate second operand (R162). -/
  | cmnImm (c : Cond) (rn : RegNum) (rot : BitVec 4) (imm8 : BitVec 8)
  /-- CMN, register shifted by an immediate (R162). -/
  | cmnShImm (c : Cond) (rn : RegNum) (amount : BitVec 5) (t : ShiftType) (rm : RegNum)
  /-- CMN, register shifted by a register (R162). -/
  | cmnShReg (c : Cond) (rn rs : RegNum) (t : ShiftType) (rm : RegNum)
  /-- ORR, immediate second operand (R163). -/
  | orrImm (c : Cond) (sf : Bool) (rn rd : RegNum) (rot : BitVec 4) (imm8 : BitVec 8)
  /-- ORR, register shifted by an immediate (R163). -/
  | orrShImm (c : Cond) (sf : Bool) (rn rd : RegNum) (amount : BitVec 5) (t : ShiftType) (rm : RegNum)
  /-- ORR, register shifted by a register (R163). -/
  | orrShReg (c : Cond) (sf : Bool) (rn rd rs : RegNum) (t : ShiftType) (rm : RegNum)
  /-- MOV, immediate second operand (R164). -/
  | movImm (c : Cond) (sf : Bool) (rd : RegNum) (rot : BitVec 4) (imm8 : BitVec 8)
  /-- MOV, register shifted by an immediate (R164). -/
  | movShImm (c : Cond) (sf : Bool) (rd : RegNum) (amount : BitVec 5) (t : ShiftType) (rm : RegNum)
  /-- MOV, register shifted by a register (R164). -/
  | movShReg (c : Cond) (sf : Bool) (rd rs : RegNum) (t : ShiftType) (rm : RegNum)
  /-- BIC, immediate second operand (R165). -/
  | bicImm (c : Cond) (sf : Bool) (rn rd : RegNum) (rot : BitVec 4) (imm8 : BitVec 8)
  /-- BIC, register shifted by an immediate (R165). -/
  | bicShImm (c : Cond) (sf : Bool) (rn rd : RegNum) (amount : BitVec 5) (t : ShiftType) (rm : RegNum)
  /-- BIC, register shifted by a register (R165). -/
  | bicShReg (c : Cond) (sf : Bool) (rn rd rs : RegNum) (t : ShiftType) (rm : RegNum)
  /-- MVN, immediate second operand (R166). -/
  | mvnImm (c : Cond) (sf : Bool) (rd : RegNum) (rot : BitVec 4) (imm8 : BitVec 8)
  /-- MVN, register shifted by an immediate (R166). -/
  | mvnShImm (c : Cond) (sf : Bool) (rd : RegNum) (amount : BitVec 5) (t : ShiftType) (rm : RegNum)
  /-- MVN, register shifted by a register (R166). -/
  | mvnShReg (c : Cond) (sf : Bool) (rd rs : RegNum) (t : ShiftType) (rm : RegNum)
  /-- MUL (R241). -/
  | mul (c : Cond) (sf : Bool) (rd rs rm : RegNum)
  /-- MLA (R242). -/
  | mla (c : Cond) (sf : Bool) (rd rn rs rm : RegNum)
  /-- UMULL (R243). -/
  | umull (c : Cond) (sf : Bool) (rdHi rdLo rs rm : RegNum)
  /-- UMLAL (R244). -/
  | umlal (c : Cond) (sf : Bool) (rdHi rdLo rs rm : RegNum)
  /-- SMULL (R245). -/
  | smull (c : Cond) (sf : Bool) (rdHi rdLo rs rm : RegNum)
  /-- SMLAL (R246). -/
  | smlal (c : Cond) (sf : Bool) (rdHi rdLo rs rm : RegNum)
  /-- SWP (R198). -/
  | swp (c : Cond) (rn rd rm : RegNum)
  /-- SWPB (R198). -/
  | swpb (c : Cond) (rn rd rm : RegNum)
  /-- BX (R134). -/
  | bx (c : Cond) (rm : RegNum)
  /-- MRS (R221). -/
  | mrs (c : Cond) (spsr : Bool) (rd : RegNum)
  /-- MSR, register operand (R222). -/
  | msrReg (c : Cond) (spsr : Bool) (mask : BitVec 4) (rm : RegNum)
  /-- MSR, immediate operand (R222). -/
  | msrImm (c : Cond) (spsr : Bool) (mask rot : BitVec 4) (imm8 : BitVec 8)
  /-- LDR, immediate offset, P = 1 (offset or pre-indexed) (R184). -/
  | ldrImm (c : Cond) (u w : Bool) (rn rd : RegNum) (imm12 : BitVec 12)
  /-- LDR, immediate offset, post-indexed (R184). -/
  | ldrImmPost (c : Cond) (u : Bool) (rn rd : RegNum) (imm12 : BitVec 12)
  /-- LDR, register offset, P = 1 (offset or pre-indexed) (R184). -/
  | ldrReg (c : Cond) (u w : Bool) (rn rd : RegNum) (amount : BitVec 5) (t : ShiftType) (rm : RegNum)
  /-- LDR, register offset, post-indexed (R184). -/
  | ldrRegPost (c : Cond) (u : Bool) (rn rd : RegNum) (amount : BitVec 5) (t : ShiftType) (rm : RegNum)
  /-- STR, immediate offset, P = 1 (offset or pre-indexed) (R186). -/
  | strImm (c : Cond) (u w : Bool) (rn rd : RegNum) (imm12 : BitVec 12)
  /-- STR, immediate offset, post-indexed (R186). -/
  | strImmPost (c : Cond) (u : Bool) (rn rd : RegNum) (imm12 : BitVec 12)
  /-- STR, register offset, P = 1 (offset or pre-indexed) (R186). -/
  | strReg (c : Cond) (u w : Bool) (rn rd : RegNum) (amount : BitVec 5) (t : ShiftType) (rm : RegNum)
  /-- STR, register offset, post-indexed (R186). -/
  | strRegPost (c : Cond) (u : Bool) (rn rd : RegNum) (amount : BitVec 5) (t : ShiftType) (rm : RegNum)
  /-- LDRB, immediate offset, P = 1 (offset or pre-indexed) (R187). -/
  | ldrbImm (c : Cond) (u w : Bool) (rn rd : RegNum) (imm12 : BitVec 12)
  /-- LDRB, immediate offset, post-indexed (R187). -/
  | ldrbImmPost (c : Cond) (u : Bool) (rn rd : RegNum) (imm12 : BitVec 12)
  /-- LDRB, register offset, P = 1 (offset or pre-indexed) (R187). -/
  | ldrbReg (c : Cond) (u w : Bool) (rn rd : RegNum) (amount : BitVec 5) (t : ShiftType) (rm : RegNum)
  /-- LDRB, register offset, post-indexed (R187). -/
  | ldrbRegPost (c : Cond) (u : Bool) (rn rd : RegNum) (amount : BitVec 5) (t : ShiftType) (rm : RegNum)
  /-- STRB, immediate offset, P = 1 (offset or pre-indexed) (R188). -/
  | strbImm (c : Cond) (u w : Bool) (rn rd : RegNum) (imm12 : BitVec 12)
  /-- STRB, immediate offset, post-indexed (R188). -/
  | strbImmPost (c : Cond) (u : Bool) (rn rd : RegNum) (imm12 : BitVec 12)
  /-- STRB, register offset, P = 1 (offset or pre-indexed) (R188). -/
  | strbReg (c : Cond) (u w : Bool) (rn rd : RegNum) (amount : BitVec 5) (t : ShiftType) (rm : RegNum)
  /-- STRB, register offset, post-indexed (R188). -/
  | strbRegPost (c : Cond) (u : Bool) (rn rd : RegNum) (amount : BitVec 5) (t : ShiftType) (rm : RegNum)
  /-- LDRT, immediate offset (R193). -/
  | ldrtImm (c : Cond) (u : Bool) (rn rd : RegNum) (imm12 : BitVec 12)
  /-- LDRT, register offset (R193). -/
  | ldrtReg (c : Cond) (u : Bool) (rn rd : RegNum) (amount : BitVec 5) (t : ShiftType) (rm : RegNum)
  /-- STRT, immediate offset (R193). -/
  | strtImm (c : Cond) (u : Bool) (rn rd : RegNum) (imm12 : BitVec 12)
  /-- STRT, register offset (R193). -/
  | strtReg (c : Cond) (u : Bool) (rn rd : RegNum) (amount : BitVec 5) (t : ShiftType) (rm : RegNum)
  /-- LDRBT, immediate offset (R193). -/
  | ldrbtImm (c : Cond) (u : Bool) (rn rd : RegNum) (imm12 : BitVec 12)
  /-- LDRBT, register offset (R193). -/
  | ldrbtReg (c : Cond) (u : Bool) (rn rd : RegNum) (amount : BitVec 5) (t : ShiftType) (rm : RegNum)
  /-- STRBT, immediate offset (R193). -/
  | strbtImm (c : Cond) (u : Bool) (rn rd : RegNum) (imm12 : BitVec 12)
  /-- STRBT, register offset (R193). -/
  | strbtReg (c : Cond) (u : Bool) (rn rd : RegNum) (amount : BitVec 5) (t : ShiftType) (rm : RegNum)
  /-- LDRH, immediate offset (R189). -/
  | ldrhImm (c : Cond) (ix : HsIndex) (u : Bool) (rn rd : RegNum) (immH immL : BitVec 4)
  /-- LDRH, register offset (R189). -/
  | ldrhReg (c : Cond) (ix : HsIndex) (u : Bool) (rn rd rm : RegNum)
  /-- STRH, immediate offset (R190). -/
  | strhImm (c : Cond) (ix : HsIndex) (u : Bool) (rn rd : RegNum) (immH immL : BitVec 4)
  /-- STRH, register offset (R190). -/
  | strhReg (c : Cond) (ix : HsIndex) (u : Bool) (rn rd rm : RegNum)
  /-- LDRSB, immediate offset (R192). -/
  | ldrsbImm (c : Cond) (ix : HsIndex) (u : Bool) (rn rd : RegNum) (immH immL : BitVec 4)
  /-- LDRSB, register offset (R192). -/
  | ldrsbReg (c : Cond) (ix : HsIndex) (u : Bool) (rn rd rm : RegNum)
  /-- LDRSH, immediate offset (R191). -/
  | ldrshImm (c : Cond) (ix : HsIndex) (u : Bool) (rn rd : RegNum) (immH immL : BitVec 4)
  /-- LDRSH, register offset (R191). -/
  | ldrshReg (c : Cond) (ix : HsIndex) (u : Bool) (rn rd rm : RegNum)
  /-- LDM (R213). -/
  | ldm (c : Cond) (p u sf w : Bool) (rn : RegNum) (list : BitVec 16)
  /-- STM (R216). -/
  | stm (c : Cond) (p u sf w : Bool) (rn : RegNum) (list : BitVec 16)
  /-- B (R131). -/
  | b (c : Cond) (imm24 : BitVec 24)
  /-- BL (R132). -/
  | bl (c : Cond) (imm24 : BitVec 24)
  /-- SWI (R231). -/
  | swi (c : Cond) (imm24 : BitVec 24)
  /-- UNDEFINED (R232). -/
  | undefined (c : Cond) (hi : BitVec 20) (lo : BitVec 4)
  /-- LDC (R233). -/
  | ldc (c : Cond) (p u n w : Bool) (rn : RegNum) (crd cp : BitVec 4) (off8 : BitVec 8)
  /-- STC (R233). -/
  | stc (c : Cond) (p u n w : Bool) (rn : RegNum) (crd cp : BitVec 4) (off8 : BitVec 8)
  /-- CDP (R233). -/
  | cdp (c : Cond) (op1 crn crd cp : BitVec 4) (op2 : BitVec 3) (crm : BitVec 4)
  /-- MCR (R233). -/
  | mcr (c : Cond) (op1 : BitVec 3) (crn : BitVec 4) (rd : RegNum) (cp : BitVec 4) (op2 : BitVec 3) (crm : BitVec 4)
  /-- MRC (R233). -/
  | mrc (c : Cond) (op1 : BitVec 3) (crn : BitVec 4) (rd : RegNum) (cp : BitVec 4) (op2 : BitVec 3) (crm : BitVec 4)
deriving DecidableEq, Repr

/-- The condition field of an instruction (R90, R120). -/
def Instr.cond : Instr → Cond
  | .andImm c _ _ _ _ _ => c
  | .andShImm c _ _ _ _ _ _ => c
  | .andShReg c _ _ _ _ _ _ => c
  | .eorImm c _ _ _ _ _ => c
  | .eorShImm c _ _ _ _ _ _ => c
  | .eorShReg c _ _ _ _ _ _ => c
  | .subImm c _ _ _ _ _ => c
  | .subShImm c _ _ _ _ _ _ => c
  | .subShReg c _ _ _ _ _ _ => c
  | .rsbImm c _ _ _ _ _ => c
  | .rsbShImm c _ _ _ _ _ _ => c
  | .rsbShReg c _ _ _ _ _ _ => c
  | .addImm c _ _ _ _ _ => c
  | .addShImm c _ _ _ _ _ _ => c
  | .addShReg c _ _ _ _ _ _ => c
  | .adcImm c _ _ _ _ _ => c
  | .adcShImm c _ _ _ _ _ _ => c
  | .adcShReg c _ _ _ _ _ _ => c
  | .sbcImm c _ _ _ _ _ => c
  | .sbcShImm c _ _ _ _ _ _ => c
  | .sbcShReg c _ _ _ _ _ _ => c
  | .rscImm c _ _ _ _ _ => c
  | .rscShImm c _ _ _ _ _ _ => c
  | .rscShReg c _ _ _ _ _ _ => c
  | .tstImm c _ _ _ => c
  | .tstShImm c _ _ _ _ => c
  | .tstShReg c _ _ _ _ => c
  | .teqImm c _ _ _ => c
  | .teqShImm c _ _ _ _ => c
  | .teqShReg c _ _ _ _ => c
  | .cmpImm c _ _ _ => c
  | .cmpShImm c _ _ _ _ => c
  | .cmpShReg c _ _ _ _ => c
  | .cmnImm c _ _ _ => c
  | .cmnShImm c _ _ _ _ => c
  | .cmnShReg c _ _ _ _ => c
  | .orrImm c _ _ _ _ _ => c
  | .orrShImm c _ _ _ _ _ _ => c
  | .orrShReg c _ _ _ _ _ _ => c
  | .movImm c _ _ _ _ => c
  | .movShImm c _ _ _ _ _ => c
  | .movShReg c _ _ _ _ _ => c
  | .bicImm c _ _ _ _ _ => c
  | .bicShImm c _ _ _ _ _ _ => c
  | .bicShReg c _ _ _ _ _ _ => c
  | .mvnImm c _ _ _ _ => c
  | .mvnShImm c _ _ _ _ _ => c
  | .mvnShReg c _ _ _ _ _ => c
  | .mul c _ _ _ _ => c
  | .mla c _ _ _ _ _ => c
  | .umull c _ _ _ _ _ => c
  | .umlal c _ _ _ _ _ => c
  | .smull c _ _ _ _ _ => c
  | .smlal c _ _ _ _ _ => c
  | .swp c _ _ _ => c
  | .swpb c _ _ _ => c
  | .bx c _ => c
  | .mrs c _ _ => c
  | .msrReg c _ _ _ => c
  | .msrImm c _ _ _ _ => c
  | .ldrImm c _ _ _ _ _ => c
  | .ldrImmPost c _ _ _ _ => c
  | .ldrReg c _ _ _ _ _ _ _ => c
  | .ldrRegPost c _ _ _ _ _ _ => c
  | .strImm c _ _ _ _ _ => c
  | .strImmPost c _ _ _ _ => c
  | .strReg c _ _ _ _ _ _ _ => c
  | .strRegPost c _ _ _ _ _ _ => c
  | .ldrbImm c _ _ _ _ _ => c
  | .ldrbImmPost c _ _ _ _ => c
  | .ldrbReg c _ _ _ _ _ _ _ => c
  | .ldrbRegPost c _ _ _ _ _ _ => c
  | .strbImm c _ _ _ _ _ => c
  | .strbImmPost c _ _ _ _ => c
  | .strbReg c _ _ _ _ _ _ _ => c
  | .strbRegPost c _ _ _ _ _ _ => c
  | .ldrtImm c _ _ _ _ => c
  | .ldrtReg c _ _ _ _ _ _ => c
  | .strtImm c _ _ _ _ => c
  | .strtReg c _ _ _ _ _ _ => c
  | .ldrbtImm c _ _ _ _ => c
  | .ldrbtReg c _ _ _ _ _ _ => c
  | .strbtImm c _ _ _ _ => c
  | .strbtReg c _ _ _ _ _ _ => c
  | .ldrhImm c _ _ _ _ _ _ => c
  | .ldrhReg c _ _ _ _ _ => c
  | .strhImm c _ _ _ _ _ _ => c
  | .strhReg c _ _ _ _ _ => c
  | .ldrsbImm c _ _ _ _ _ _ => c
  | .ldrsbReg c _ _ _ _ _ => c
  | .ldrshImm c _ _ _ _ _ _ => c
  | .ldrshReg c _ _ _ _ _ => c
  | .ldm c _ _ _ _ _ _ => c
  | .stm c _ _ _ _ _ _ => c
  | .b c _ => c
  | .bl c _ => c
  | .swi c _ => c
  | .undefined c _ _ => c
  | .ldc c _ _ _ _ _ _ _ _ => c
  | .stc c _ _ _ _ _ _ _ _ => c
  | .cdp c _ _ _ _ _ _ => c
  | .mcr c _ _ _ _ _ _ => c
  | .mrc c _ _ _ _ _ _ => c

end Sys2Proof
end

