-- ==== Sys2Proof/WellFormed.lean ====
section
/-! DEFINITION. Well-formedness: the operand combinations that the spec calls UNPREDICTABLE, one named restriction each.
An instruction with a restriction is refused when its condition passes (`Sys2Proof.Machine.guarded`, log 15). -/

namespace Sys2Proof

/-- Why an operand combination is UNPREDICTABLE. -/
inductive Restriction where
  /-- R15 in a data-processing instruction with a register-specified shift (R146, U8). -/
  | registerShiftPc
  /-- R15 as an operand or destination of a multiply (R247, U18). -/
  | multiplyPc
  /-- MUL or MLA with Rd = Rm; a long multiply with RdHi = RdLo or either equal to Rm (R247, U18). -/
  | multiplyOverlap
  /-- R15 as any register of SWP or SWPB (R198, U20). -/
  | swapPc
  /-- SWP or SWPB with Rn = Rm or Rn = Rd (R198, U20). -/
  | swapOverlap
  /-- MRS with Rd = R15 (R221), MSR with Rm = R15 (R222, U8). -/
  | statusPc
  /-- A register offset with Rm = R15 (R181, R182, U19). -/
  | offsetPc
  /-- Write-back with Rn = R15 (R181, R182, U19). -/
  | writebackPc
  /-- Write-back with Rn = Rd (R181, R182, U19). -/
  | writebackData
  /-- Write-back with a register offset and Rn = Rm (R181, R182, U19). -/
  | writebackOffset
  /-- P = 0 with W = 1 in a halfword or signed transfer (R182). -/
  | postWriteback
  /-- R15 as Rd of a byte, halfword or signed transfer (R187 to R192, U20). -/
  | narrowPc
  /-- LDM or STM with an empty list (R217(a), U16). -/
  | emptyList
  /-- LDM or STM with R15 as base (R217(b), U16). -/
  | blockBasePc
  /-- STM with write-back and the base in the list, not lowest (R217(c), U16). -/
  | storedBase
  /-- LDM with write-back and the base in the list (R217(d), U16). -/
  | loadedBase
  /-- LDM or STM of the User bank with write-back (R215). -/
  | userBankWriteback
deriving DecidableEq, Repr

/-- The register number of the program counter (R10, R27). -/
def pcNum : RegNum := 15#4

/-- The first restriction of a list of (restriction, is it broken) that is broken. -/
def firstBroken : List (Restriction × Bool) → Option Restriction
  | [] => none
  | (r, broken) :: rest => if broken then some r else firstBroken rest

/-- R146: no R15 beside a register-specified shift. -/
def restrictShReg (rs : List RegNum) : Option Restriction :=
  firstBroken [(.registerShiftPc, rs.contains pcNum)]

/-- R247 for MUL and MLA. -/
def restrictMul (rd rm : RegNum) (others : List RegNum) : Option Restriction :=
  firstBroken [(.multiplyPc, (rd :: rm :: others).contains pcNum), (.multiplyOverlap, rd == rm)]

/-- R247 for the long multiplies. -/
def restrictMull (rdHi rdLo rs rm : RegNum) : Option Restriction :=
  firstBroken [(.multiplyPc, [rdHi, rdLo, rs, rm].contains pcNum),
    (.multiplyOverlap, rdHi == rdLo || rdHi == rm || rdLo == rm)]

/-- R198. -/
def restrictSwp (rn rd rm : RegNum) : Option Restriction :=
  firstBroken [(.swapPc, [rn, rd, rm].contains pcNum), (.swapOverlap, rn == rm || rn == rd)]

/-- R181 and R182: `wb` is "the base is written back", `narrow` is "Rd may not be R15", `rm` the offset register if any. -/
def restrictTransfer (wb narrow : Bool) (rn rd : RegNum) (rm : Option RegNum) : Option Restriction :=
  firstBroken [(.narrowPc, narrow && rd == pcNum), (.offsetPc, rm == some pcNum), (.writebackPc, wb && rn == pcNum),
    (.writebackData, wb && rn == rd), (.writebackOffset, wb && rm == some rn)]

/-- R182: P = 0 with W = 1, and the cases it shares with R181. -/
def restrictHs (ix : HsIndex) (rn rd : RegNum) (rm : Option RegNum) : Option Restriction :=
  if ix = .postIndexedW then some .postWriteback else restrictTransfer ix.writesBack true rn rd rm

/-- R215 and R217 for LDM. -/
def restrictLdm (sf w : Bool) (rn : RegNum) (list : BitVec 16) : Option Restriction :=
  firstBroken [(.emptyList, list == 0#16), (.blockBasePc, rn == pcNum), (.loadedBase, w && list.getLsbD rn.toNat),
    (.userBankWriteback, sf && w && !list.getLsbD 15)]

/-- The register is in the list and a lower-numbered one is too (R217(c)). -/
def notLowest (rn : RegNum) (list : BitVec 16) : Bool :=
  list.getLsbD rn.toNat && (List.range rn.toNat).any fun i => list.getLsbD i

/-- R215 and R217 for STM. -/
def restrictStm (sf w : Bool) (rn : RegNum) (list : BitVec 16) : Option Restriction :=
  firstBroken [(.emptyList, list == 0#16), (.blockBasePc, rn == pcNum), (.storedBase, w && notLowest rn list),
    (.userBankWriteback, sf && w)]

/-- The restriction an instruction breaks, if any. -/
def Instr.restriction : Instr → Option Restriction
  | .andImm _ _ _ _ _ _ => none
  | .andShImm _ _ _ _ _ _ _ => none
  | .andShReg _ _ rn rd rs _ rm => restrictShReg [rn, rd, rs, rm]
  | .eorImm _ _ _ _ _ _ => none
  | .eorShImm _ _ _ _ _ _ _ => none
  | .eorShReg _ _ rn rd rs _ rm => restrictShReg [rn, rd, rs, rm]
  | .subImm _ _ _ _ _ _ => none
  | .subShImm _ _ _ _ _ _ _ => none
  | .subShReg _ _ rn rd rs _ rm => restrictShReg [rn, rd, rs, rm]
  | .rsbImm _ _ _ _ _ _ => none
  | .rsbShImm _ _ _ _ _ _ _ => none
  | .rsbShReg _ _ rn rd rs _ rm => restrictShReg [rn, rd, rs, rm]
  | .addImm _ _ _ _ _ _ => none
  | .addShImm _ _ _ _ _ _ _ => none
  | .addShReg _ _ rn rd rs _ rm => restrictShReg [rn, rd, rs, rm]
  | .adcImm _ _ _ _ _ _ => none
  | .adcShImm _ _ _ _ _ _ _ => none
  | .adcShReg _ _ rn rd rs _ rm => restrictShReg [rn, rd, rs, rm]
  | .sbcImm _ _ _ _ _ _ => none
  | .sbcShImm _ _ _ _ _ _ _ => none
  | .sbcShReg _ _ rn rd rs _ rm => restrictShReg [rn, rd, rs, rm]
  | .rscImm _ _ _ _ _ _ => none
  | .rscShImm _ _ _ _ _ _ _ => none
  | .rscShReg _ _ rn rd rs _ rm => restrictShReg [rn, rd, rs, rm]
  | .tstImm _ _ _ _ => none
  | .tstShImm _ _ _ _ _ => none
  | .tstShReg _ rn rs _ rm => restrictShReg [rn, rs, rm]
  | .teqImm _ _ _ _ => none
  | .teqShImm _ _ _ _ _ => none
  | .teqShReg _ rn rs _ rm => restrictShReg [rn, rs, rm]
  | .cmpImm _ _ _ _ => none
  | .cmpShImm _ _ _ _ _ => none
  | .cmpShReg _ rn rs _ rm => restrictShReg [rn, rs, rm]
  | .cmnImm _ _ _ _ => none
  | .cmnShImm _ _ _ _ _ => none
  | .cmnShReg _ rn rs _ rm => restrictShReg [rn, rs, rm]
  | .orrImm _ _ _ _ _ _ => none
  | .orrShImm _ _ _ _ _ _ _ => none
  | .orrShReg _ _ rn rd rs _ rm => restrictShReg [rn, rd, rs, rm]
  | .movImm _ _ _ _ _ => none
  | .movShImm _ _ _ _ _ _ => none
  | .movShReg _ _ rd rs _ rm => restrictShReg [rd, rs, rm]
  | .bicImm _ _ _ _ _ _ => none
  | .bicShImm _ _ _ _ _ _ _ => none
  | .bicShReg _ _ rn rd rs _ rm => restrictShReg [rn, rd, rs, rm]
  | .mvnImm _ _ _ _ _ => none
  | .mvnShImm _ _ _ _ _ _ => none
  | .mvnShReg _ _ rd rs _ rm => restrictShReg [rd, rs, rm]
  | .mul _ _ rd rs rm => restrictMul rd rm [rs]
  | .mla _ _ rd rn rs rm => restrictMul rd rm [rn, rs]
  | .umull _ _ rdHi rdLo rs rm => restrictMull rdHi rdLo rs rm
  | .umlal _ _ rdHi rdLo rs rm => restrictMull rdHi rdLo rs rm
  | .smull _ _ rdHi rdLo rs rm => restrictMull rdHi rdLo rs rm
  | .smlal _ _ rdHi rdLo rs rm => restrictMull rdHi rdLo rs rm
  | .swp _ rn rd rm => restrictSwp rn rd rm
  | .swpb _ rn rd rm => restrictSwp rn rd rm
  | .bx _ _ => none
  | .mrs _ _ rd => firstBroken [(.statusPc, rd == pcNum)]
  | .msrReg _ _ _ rm => firstBroken [(.statusPc, rm == pcNum)]
  | .msrImm _ _ _ _ _ => none
  | .ldrImm _ _ w rn rd _ => restrictTransfer w false rn rd none
  | .ldrImmPost _ _ rn rd _ => restrictTransfer true false rn rd none
  | .ldrReg _ _ w rn rd _ _ rm => restrictTransfer w false rn rd (some rm)
  | .ldrRegPost _ _ rn rd _ _ rm => restrictTransfer true false rn rd (some rm)
  | .strImm _ _ w rn rd _ => restrictTransfer w false rn rd none
  | .strImmPost _ _ rn rd _ => restrictTransfer true false rn rd none
  | .strReg _ _ w rn rd _ _ rm => restrictTransfer w false rn rd (some rm)
  | .strRegPost _ _ rn rd _ _ rm => restrictTransfer true false rn rd (some rm)
  | .ldrbImm _ _ w rn rd _ => restrictTransfer w true rn rd none
  | .ldrbImmPost _ _ rn rd _ => restrictTransfer true true rn rd none
  | .ldrbReg _ _ w rn rd _ _ rm => restrictTransfer w true rn rd (some rm)
  | .ldrbRegPost _ _ rn rd _ _ rm => restrictTransfer true true rn rd (some rm)
  | .strbImm _ _ w rn rd _ => restrictTransfer w true rn rd none
  | .strbImmPost _ _ rn rd _ => restrictTransfer true true rn rd none
  | .strbReg _ _ w rn rd _ _ rm => restrictTransfer w true rn rd (some rm)
  | .strbRegPost _ _ rn rd _ _ rm => restrictTransfer true true rn rd (some rm)
  | .ldrtImm _ _ rn rd _ => restrictTransfer true false rn rd none
  | .ldrtReg _ _ rn rd _ _ rm => restrictTransfer true false rn rd (some rm)
  | .strtImm _ _ rn rd _ => restrictTransfer true false rn rd none
  | .strtReg _ _ rn rd _ _ rm => restrictTransfer true false rn rd (some rm)
  | .ldrbtImm _ _ rn rd _ => restrictTransfer true true rn rd none
  | .ldrbtReg _ _ rn rd _ _ rm => restrictTransfer true true rn rd (some rm)
  | .strbtImm _ _ rn rd _ => restrictTransfer true true rn rd none
  | .strbtReg _ _ rn rd _ _ rm => restrictTransfer true true rn rd (some rm)
  | .ldrhImm _ ix _ rn rd _ _ => restrictHs ix rn rd none
  | .ldrhReg _ ix _ rn rd rm => restrictHs ix rn rd (some rm)
  | .strhImm _ ix _ rn rd _ _ => restrictHs ix rn rd none
  | .strhReg _ ix _ rn rd rm => restrictHs ix rn rd (some rm)
  | .ldrsbImm _ ix _ rn rd _ _ => restrictHs ix rn rd none
  | .ldrsbReg _ ix _ rn rd rm => restrictHs ix rn rd (some rm)
  | .ldrshImm _ ix _ rn rd _ _ => restrictHs ix rn rd none
  | .ldrshReg _ ix _ rn rd rm => restrictHs ix rn rd (some rm)
  | .ldm _ _ _ sf w rn list => restrictLdm sf w rn list
  | .stm _ _ _ sf w rn list => restrictStm sf w rn list
  | .b _ _ => none
  | .bl _ _ => none
  | .swi _ _ => none
  | .undefined _ _ _ => none
  | .ldc _ _ _ _ _ _ _ _ _ => none
  | .stc _ _ _ _ _ _ _ _ _ => none
  | .cdp _ _ _ _ _ _ _ => none
  | .mcr _ _ _ _ _ _ _ => none
  | .mrc _ _ _ _ _ _ _ => none

/-- The instruction breaks no restriction. -/
def Instr.wellFormed (i : Instr) : Bool := i.restriction.isNone

end Sys2Proof
end

