-- ==== Sys2Proof/Decode.lean ====
section
/-! DEFINITION. Decoding and encoding of ARM-state instructions (30_encoding.md): `decodeWord` is the procedure of R92 with the
fields of R93 to R97, total on every word, rejecting by name; `encode` writes the lines of R100. -/

namespace Sys2Proof

/-- Why a word is no instruction of the model. -/
inductive DecodeError where
  /-- `cond = 0b1111` (R109, log 16). -/
  | condNever
  /-- An arm marked UNALLOCATED in R92 (R106, log 17). -/
  | unallocated
  /-- BLX, an instruction of a later architecture (R108, R136, log 17). -/
  | blxAbsent
  /-- Where STRSH and STRSB would sit (R107, R197, log 17). -/
  | signedStore
  /-- A field that should be zero is not (R110, log 15). -/
  | shouldBe
deriving DecidableEq, Repr

/-- The bits `lo + len - 1 : lo` of a word (R6). -/
def field (w : Word) (lo len : Nat) : BitVec len := w.extractLsb' lo len

/-- One bit of a word (R6). -/
def bitAt (w : Word) (i : Nat) : Bool := w.getLsbD i

/-- The code of a condition (R121). -/
def Cond.bits : Cond → BitVec 4
  | .eq => 0b0000#4
  | .ne => 0b0001#4
  | .cs => 0b0010#4
  | .cc => 0b0011#4
  | .mi => 0b0100#4
  | .pl => 0b0101#4
  | .vs => 0b0110#4
  | .vc => 0b0111#4
  | .hi => 0b1000#4
  | .ls => 0b1001#4
  | .ge => 0b1010#4
  | .lt => 0b1011#4
  | .gt => 0b1100#4
  | .le => 0b1101#4
  | .al => 0b1110#4

/-- The condition of a code; 1111 is none (R109, R121). -/
def Cond.ofBits (b : BitVec 4) : Option Cond :=
  match b.toNat with
  | 0 => some .eq
  | 1 => some .ne
  | 2 => some .cs
  | 3 => some .cc
  | 4 => some .mi
  | 5 => some .pl
  | 6 => some .vs
  | 7 => some .vc
  | 8 => some .hi
  | 9 => some .ls
  | 10 => some .ge
  | 11 => some .lt
  | 12 => some .gt
  | 13 => some .le
  | 14 => some .al
  | _ => none

/-- The code of a shift (R93). -/
def ShiftType.bits : ShiftType → BitVec 2
  | .lsl => 0b00#2
  | .lsr => 0b01#2
  | .asr => 0b10#2
  | .ror => 0b11#2

/-- The shift of a code (R93). -/
def ShiftType.ofBits (b : BitVec 2) : ShiftType :=
  match b.toNat with
  | 0 => .lsl
  | 1 => .lsr
  | 2 => .asr
  | _ => .ror

/-- The indexing form of P and W in format HS (R182). -/
def HsIndex.ofBits (p w : Bool) : HsIndex :=
  match p, w with
  | true, false => .offset
  | true, true => .preIndexed
  | false, false => .postIndexed
  | false, true => .postIndexedW

/-- `i` where a field that should be zero is zero (R110). -/
def requireZero {n : Nat} (b : BitVec n) (i : Instr) : Except DecodeError Instr :=
  if b = 0 then .ok i else .error .shouldBe

/-- Format DP, immediate second operand (R93, `cccc 001 oooo S nnnn dddd rrrr iiiiiiii`). -/
def decodeDpImm (c : Cond) (w : Word) : Except DecodeError Instr :=
  let sf := bitAt w 20
  let rn := field w 16 4
  let rd := field w 12 4
  let rot := field w 8 4
  let imm8 := field w 0 8
  match (field w 21 4).toNat with
  | 0 => .ok (.andImm c sf rn rd rot imm8)
  | 1 => .ok (.eorImm c sf rn rd rot imm8)
  | 2 => .ok (.subImm c sf rn rd rot imm8)
  | 3 => .ok (.rsbImm c sf rn rd rot imm8)
  | 4 => .ok (.addImm c sf rn rd rot imm8)
  | 5 => .ok (.adcImm c sf rn rd rot imm8)
  | 6 => .ok (.sbcImm c sf rn rd rot imm8)
  | 7 => .ok (.rscImm c sf rn rd rot imm8)
  | 8 => requireZero rd (.tstImm c rn rot imm8)
  | 9 => requireZero rd (.teqImm c rn rot imm8)
  | 10 => requireZero rd (.cmpImm c rn rot imm8)
  | 11 => requireZero rd (.cmnImm c rn rot imm8)
  | 12 => .ok (.orrImm c sf rn rd rot imm8)
  | 13 => requireZero rn (.movImm c sf rd rot imm8)
  | 14 => .ok (.bicImm c sf rn rd rot imm8)
  | _ => requireZero rn (.mvnImm c sf rd rot imm8)

/-- Format DP, register shifted by an immediate (R93, `cccc 000 oooo S nnnn dddd aaaaa tt 0 mmmm`). -/
def decodeDpShImm (c : Cond) (w : Word) : Except DecodeError Instr :=
  let sf := bitAt w 20
  let rn := field w 16 4
  let rd := field w 12 4
  let amount := field w 7 5
  let t := ShiftType.ofBits (field w 5 2)
  let rm := field w 0 4
  match (field w 21 4).toNat with
  | 0 => .ok (.andShImm c sf rn rd amount t rm)
  | 1 => .ok (.eorShImm c sf rn rd amount t rm)
  | 2 => .ok (.subShImm c sf rn rd amount t rm)
  | 3 => .ok (.rsbShImm c sf rn rd amount t rm)
  | 4 => .ok (.addShImm c sf rn rd amount t rm)
  | 5 => .ok (.adcShImm c sf rn rd amount t rm)
  | 6 => .ok (.sbcShImm c sf rn rd amount t rm)
  | 7 => .ok (.rscShImm c sf rn rd amount t rm)
  | 8 => requireZero rd (.tstShImm c rn amount t rm)
  | 9 => requireZero rd (.teqShImm c rn amount t rm)
  | 10 => requireZero rd (.cmpShImm c rn amount t rm)
  | 11 => requireZero rd (.cmnShImm c rn amount t rm)
  | 12 => .ok (.orrShImm c sf rn rd amount t rm)
  | 13 => requireZero rn (.movShImm c sf rd amount t rm)
  | 14 => .ok (.bicShImm c sf rn rd amount t rm)
  | _ => requireZero rn (.mvnShImm c sf rd amount t rm)

/-- Format DP, register shifted by a register (R93, `cccc 000 oooo S nnnn dddd ssss 0 tt 1 mmmm`). -/
def decodeDpShReg (c : Cond) (w : Word) : Except DecodeError Instr :=
  let sf := bitAt w 20
  let rn := field w 16 4
  let rd := field w 12 4
  let rs := field w 8 4
  let t := ShiftType.ofBits (field w 5 2)
  let rm := field w 0 4
  match (field w 21 4).toNat with
  | 0 => .ok (.andShReg c sf rn rd rs t rm)
  | 1 => .ok (.eorShReg c sf rn rd rs t rm)
  | 2 => .ok (.subShReg c sf rn rd rs t rm)
  | 3 => .ok (.rsbShReg c sf rn rd rs t rm)
  | 4 => .ok (.addShReg c sf rn rd rs t rm)
  | 5 => .ok (.adcShReg c sf rn rd rs t rm)
  | 6 => .ok (.sbcShReg c sf rn rd rs t rm)
  | 7 => .ok (.rscShReg c sf rn rd rs t rm)
  | 8 => requireZero rd (.tstShReg c rn rs t rm)
  | 9 => requireZero rd (.teqShReg c rn rs t rm)
  | 10 => requireZero rd (.cmpShReg c rn rs t rm)
  | 11 => requireZero rd (.cmnShReg c rn rs t rm)
  | 12 => .ok (.orrShReg c sf rn rd rs t rm)
  | 13 => requireZero rn (.movShReg c sf rd rs t rm)
  | 14 => .ok (.bicShReg c sf rn rd rs t rm)
  | _ => requireZero rn (.mvnShReg c sf rd rs t rm)

/-- Formats MUL, MULL and SWP: class 000 with bits 7 and 4 set and bits 6:5 clear (R92, R94, R95). -/
def decodeMulSwp (c : Cond) (w : Word) : Except DecodeError Instr :=
  let sf := bitAt w 20
  let hi := field w 16 4
  let lo := field w 12 4
  let rs := field w 8 4
  let rm := field w 0 4
  if field w 22 3 = 0b000#3 then
    if bitAt w 21 then .ok (.mla c sf hi lo rs rm) else requireZero lo (.mul c sf hi rs rm)
  else if field w 23 2 = 0b01#2 then
    match (field w 21 2).toNat with
    | 0 => .ok (.umull c sf hi lo rs rm)
    | 1 => .ok (.umlal c sf hi lo rs rm)
    | 2 => .ok (.smull c sf hi lo rs rm)
    | _ => .ok (.smlal c sf hi lo rs rm)
  else if field w 23 2 = 0b10#2 ∧ field w 20 2 = 0b00#2 ∧ field w 8 4 = 0b0000#4 then
    if bitAt w 22 then .ok (.swpb c hi lo rm) else .ok (.swp c hi lo rm)
  else .error .unallocated

/-- Format HS: class 000 with bits 7 and 4 set and bits 6:5 not 00 (R92, R96, R107). -/
def decodeHs (c : Cond) (w : Word) : Except DecodeError Instr :=
  let u := bitAt w 23
  let rn := field w 16 4
  let rd := field w 12 4
  let hi := field w 8 4
  let lo := field w 0 4
  let load := bitAt w 20
  let sh := (field w 5 2).toNat
  if load = false ∧ sh ≠ 1 then .error .signedStore
  else
    let ix := HsIndex.ofBits (bitAt w 24) (bitAt w 21)
    match bitAt w 22, load, sh with
    | true, false, _ => .ok (.strhImm c ix u rn rd hi lo)
    | true, true, 1 => .ok (.ldrhImm c ix u rn rd hi lo)
    | true, true, 2 => .ok (.ldrsbImm c ix u rn rd hi lo)
    | true, true, _ => .ok (.ldrshImm c ix u rn rd hi lo)
    | false, false, _ => requireZero hi (.strhReg c ix u rn rd lo)
    | false, true, 1 => requireZero hi (.ldrhReg c ix u rn rd lo)
    | false, true, 2 => requireZero hi (.ldrsbReg c ix u rn rd lo)
    | false, true, _ => requireZero hi (.ldrshReg c ix u rn rd lo)

/-- The miscellaneous space of class 000: BX, BLX, MRS, MSR with a register operand (R92, R95, R108). -/
def decodeMisc (c : Cond) (w : Word) : Except DecodeError Instr :=
  if field w 4 4 = 0b0001#4 ∧ field w 8 12 = 0xFFF#12 ∧ field w 21 2 = 0b01#2 then .ok (.bx c (field w 0 4))
  else if field w 4 4 = 0b0011#4 ∧ field w 8 12 = 0xFFF#12 ∧ field w 21 2 = 0b01#2 then .error .blxAbsent
  else if bitAt w 21 = false ∧ field w 16 4 = 0b1111#4 ∧ field w 0 12 = 0#12 then
    .ok (.mrs c (bitAt w 22) (field w 12 4))
  else if bitAt w 21 = true ∧ field w 12 4 = 0b1111#4 ∧ field w 4 8 = 0#8 then
    .ok (.msrReg c (bitAt w 22) (field w 16 4) (field w 0 4))
  else .error .unallocated

/-- Class 000 (R92). -/
def decode000 (c : Cond) (w : Word) : Except DecodeError Instr :=
  if bitAt w 7 = true ∧ bitAt w 4 = true then
    if field w 5 2 = 0b00#2 then decodeMulSwp c w else decodeHs c w
  else if field w 23 2 = 0b10#2 ∧ bitAt w 20 = false then decodeMisc c w
  else if bitAt w 4 then decodeDpShReg c w
  else decodeDpShImm c w

/-- Class 001 (R92). -/
def decode001 (c : Cond) (w : Word) : Except DecodeError Instr :=
  if field w 23 2 = 0b10#2 ∧ bitAt w 20 = false then
    if bitAt w 21 = true ∧ field w 12 4 = 0b1111#4 then
      .ok (.msrImm c (bitAt w 22) (field w 16 4) (field w 8 4) (field w 0 8))
    else .error .unallocated
  else decodeDpImm c w

/-- Class 010: format LS with an immediate offset (R92, R96, R193). -/
def decodeLsImm (c : Cond) (w : Word) : Except DecodeError Instr :=
  let u := bitAt w 23
  let wb := bitAt w 21
  let rn := field w 16 4
  let rd := field w 12 4
  let imm := field w 0 12
  match bitAt w 24, bitAt w 22, wb, bitAt w 20 with
  | true, false, _, true => .ok (.ldrImm c u wb rn rd imm)
  | true, false, _, false => .ok (.strImm c u wb rn rd imm)
  | true, true, _, true => .ok (.ldrbImm c u wb rn rd imm)
  | true, true, _, false => .ok (.strbImm c u wb rn rd imm)
  | false, false, false, true => .ok (.ldrImmPost c u rn rd imm)
  | false, false, false, false => .ok (.strImmPost c u rn rd imm)
  | false, true, false, true => .ok (.ldrbImmPost c u rn rd imm)
  | false, true, false, false => .ok (.strbImmPost c u rn rd imm)
  | false, false, true, true => .ok (.ldrtImm c u rn rd imm)
  | false, false, true, false => .ok (.strtImm c u rn rd imm)
  | false, true, true, true => .ok (.ldrbtImm c u rn rd imm)
  | false, true, true, false => .ok (.strbtImm c u rn rd imm)

/-- Class 011 with bit 4 clear: format LS with a register offset (R92, R96, R193). -/
def decodeLsReg (c : Cond) (w : Word) : Except DecodeError Instr :=
  let u := bitAt w 23
  let wb := bitAt w 21
  let rn := field w 16 4
  let rd := field w 12 4
  let a := field w 7 5
  let t := ShiftType.ofBits (field w 5 2)
  let rm := field w 0 4
  match bitAt w 24, bitAt w 22, wb, bitAt w 20 with
  | true, false, _, true => .ok (.ldrReg c u wb rn rd a t rm)
  | true, false, _, false => .ok (.strReg c u wb rn rd a t rm)
  | true, true, _, true => .ok (.ldrbReg c u wb rn rd a t rm)
  | true, true, _, false => .ok (.strbReg c u wb rn rd a t rm)
  | false, false, false, true => .ok (.ldrRegPost c u rn rd a t rm)
  | false, false, false, false => .ok (.strRegPost c u rn rd a t rm)
  | false, true, false, true => .ok (.ldrbRegPost c u rn rd a t rm)
  | false, true, false, false => .ok (.strbRegPost c u rn rd a t rm)
  | false, false, true, true => .ok (.ldrtReg c u rn rd a t rm)
  | false, false, true, false => .ok (.strtReg c u rn rd a t rm)
  | false, true, true, true => .ok (.ldrbtReg c u rn rd a t rm)
  | false, true, true, false => .ok (.strbtReg c u rn rd a t rm)

/-- Class 100: format BLK (R96). -/
def decodeBlk (c : Cond) (w : Word) : Instr :=
  if bitAt w 20 then .ldm c (bitAt w 24) (bitAt w 23) (bitAt w 22) (bitAt w 21) (field w 16 4) (field w 0 16)
  else .stm c (bitAt w 24) (bitAt w 23) (bitAt w 22) (bitAt w 21) (field w 16 4) (field w 0 16)

/-- Class 110: the coprocessor transfers (R233). -/
def decodeCoTransfer (c : Cond) (w : Word) : Instr :=
  if bitAt w 20 then
    .ldc c (bitAt w 24) (bitAt w 23) (bitAt w 22) (bitAt w 21) (field w 16 4) (field w 12 4) (field w 8 4) (field w 0 8)
  else
    .stc c (bitAt w 24) (bitAt w 23) (bitAt w 22) (bitAt w 21) (field w 16 4) (field w 12 4) (field w 8 4) (field w 0 8)

/-- Class 111: SWI, and the coprocessor operations (R97, R233). -/
def decode111 (c : Cond) (w : Word) : Instr :=
  if bitAt w 24 then .swi c (field w 0 24)
  else if bitAt w 4 = false then
    .cdp c (field w 20 4) (field w 16 4) (field w 12 4) (field w 8 4) (field w 5 3) (field w 0 4)
  else if bitAt w 20 then
    .mrc c (field w 21 3) (field w 16 4) (field w 12 4) (field w 8 4) (field w 5 3) (field w 0 4)
  else .mcr c (field w 21 3) (field w 16 4) (field w 12 4) (field w 8 4) (field w 5 3) (field w 0 4)

/-- The class of a word whose condition is `c` (R92). -/
def decodeClass (c : Cond) (w : Word) : Except DecodeError Instr :=
  match (field w 25 3).toNat with
  | 0 => decode000 c w
  | 1 => decode001 c w
  | 2 => decodeLsImm c w
  | 3 => if bitAt w 4 then .ok (.undefined c (field w 5 20) (field w 0 4)) else decodeLsReg c w
  | 4 => .ok (decodeBlk c w)
  | 5 => .ok (if bitAt w 24 then .bl c (field w 0 24) else .b c (field w 0 24))
  | 6 => .ok (decodeCoTransfer c w)
  | _ => .ok (decode111 c w)

/-- The instruction of a 32-bit word (R90, R92). -/
def decodeWord (w : Word) : Except DecodeError Instr :=
  match Cond.ofBits (field w 28 4) with
  | none => .error .condNever
  | some c => decodeClass c w

/-- The word of four bytes, the first at the lowest address (R62). -/
def wordOfBytes (b0 b1 b2 b3 : Byte) : Word := b3 ++ b2 ++ b1 ++ b0

/-- The instruction of the four bytes of memory that hold it. -/
def decodeBytes (b0 b1 b2 b3 : Byte) : Except DecodeError Instr := decodeWord (wordOfBytes b0 b1 b2 b3)

/-- The instruction the decoder reads from a row's bits: `nbits` bits of `w`, every bit above them zero, laid out as four
little-endian bytes (R62). -/
def decodeTableWord (nbits w : Nat) : Option Instr :=
  let v := w % 2 ^ nbits
  match decodeBytes (BitVec.ofNat 8 v) (BitVec.ofNat 8 (v / 2 ^ 8)) (BitVec.ofNat 8 (v / 2 ^ 16))
      (BitVec.ofNat 8 (v / 2 ^ 24)) with
  | .ok i => some i
  | .error _ => none

/-- Append a field below the bits written so far: an instruction is written from bit 31 down. -/
def Word.push {n : Nat} (w : Word) (v : BitVec n) : Word := (w <<< n) ||| v.setWidth 32

/-- A one-bit field. -/
def Word.pushBit (w : Word) (b : Bool) : Word := w.push (BitVec.ofBool b)

/-- The word of an instruction, line by line as R100 writes it. -/
def encode : Instr → Word
  | .andImm c sf rn rd rot imm8 =>
    Word.push 0#32 c.bits |>.push 0b0010000#7 |>.pushBit sf |>.push rn |>.push rd |>.push rot |>.push imm8
  | .andShImm c sf rn rd amount t rm =>
    Word.push 0#32 c.bits |>.push 0b0000000#7 |>.pushBit sf |>.push rn |>.push rd |>.push amount |>.push t.bits |>.push 0b0#1 |>.push rm
  | .andShReg c sf rn rd rs t rm =>
    Word.push 0#32 c.bits |>.push 0b0000000#7 |>.pushBit sf |>.push rn |>.push rd |>.push rs |>.push 0b0#1 |>.push t.bits |>.push 0b1#1 |>.push rm
  | .eorImm c sf rn rd rot imm8 =>
    Word.push 0#32 c.bits |>.push 0b0010001#7 |>.pushBit sf |>.push rn |>.push rd |>.push rot |>.push imm8
  | .eorShImm c sf rn rd amount t rm =>
    Word.push 0#32 c.bits |>.push 0b0000001#7 |>.pushBit sf |>.push rn |>.push rd |>.push amount |>.push t.bits |>.push 0b0#1 |>.push rm
  | .eorShReg c sf rn rd rs t rm =>
    Word.push 0#32 c.bits |>.push 0b0000001#7 |>.pushBit sf |>.push rn |>.push rd |>.push rs |>.push 0b0#1 |>.push t.bits |>.push 0b1#1 |>.push rm
  | .subImm c sf rn rd rot imm8 =>
    Word.push 0#32 c.bits |>.push 0b0010010#7 |>.pushBit sf |>.push rn |>.push rd |>.push rot |>.push imm8
  | .subShImm c sf rn rd amount t rm =>
    Word.push 0#32 c.bits |>.push 0b0000010#7 |>.pushBit sf |>.push rn |>.push rd |>.push amount |>.push t.bits |>.push 0b0#1 |>.push rm
  | .subShReg c sf rn rd rs t rm =>
    Word.push 0#32 c.bits |>.push 0b0000010#7 |>.pushBit sf |>.push rn |>.push rd |>.push rs |>.push 0b0#1 |>.push t.bits |>.push 0b1#1 |>.push rm
  | .rsbImm c sf rn rd rot imm8 =>
    Word.push 0#32 c.bits |>.push 0b0010011#7 |>.pushBit sf |>.push rn |>.push rd |>.push rot |>.push imm8
  | .rsbShImm c sf rn rd amount t rm =>
    Word.push 0#32 c.bits |>.push 0b0000011#7 |>.pushBit sf |>.push rn |>.push rd |>.push amount |>.push t.bits |>.push 0b0#1 |>.push rm
  | .rsbShReg c sf rn rd rs t rm =>
    Word.push 0#32 c.bits |>.push 0b0000011#7 |>.pushBit sf |>.push rn |>.push rd |>.push rs |>.push 0b0#1 |>.push t.bits |>.push 0b1#1 |>.push rm
  | .addImm c sf rn rd rot imm8 =>
    Word.push 0#32 c.bits |>.push 0b0010100#7 |>.pushBit sf |>.push rn |>.push rd |>.push rot |>.push imm8
  | .addShImm c sf rn rd amount t rm =>
    Word.push 0#32 c.bits |>.push 0b0000100#7 |>.pushBit sf |>.push rn |>.push rd |>.push amount |>.push t.bits |>.push 0b0#1 |>.push rm
  | .addShReg c sf rn rd rs t rm =>
    Word.push 0#32 c.bits |>.push 0b0000100#7 |>.pushBit sf |>.push rn |>.push rd |>.push rs |>.push 0b0#1 |>.push t.bits |>.push 0b1#1 |>.push rm
  | .adcImm c sf rn rd rot imm8 =>
    Word.push 0#32 c.bits |>.push 0b0010101#7 |>.pushBit sf |>.push rn |>.push rd |>.push rot |>.push imm8
  | .adcShImm c sf rn rd amount t rm =>
    Word.push 0#32 c.bits |>.push 0b0000101#7 |>.pushBit sf |>.push rn |>.push rd |>.push amount |>.push t.bits |>.push 0b0#1 |>.push rm
  | .adcShReg c sf rn rd rs t rm =>
    Word.push 0#32 c.bits |>.push 0b0000101#7 |>.pushBit sf |>.push rn |>.push rd |>.push rs |>.push 0b0#1 |>.push t.bits |>.push 0b1#1 |>.push rm
  | .sbcImm c sf rn rd rot imm8 =>
    Word.push 0#32 c.bits |>.push 0b0010110#7 |>.pushBit sf |>.push rn |>.push rd |>.push rot |>.push imm8
  | .sbcShImm c sf rn rd amount t rm =>
    Word.push 0#32 c.bits |>.push 0b0000110#7 |>.pushBit sf |>.push rn |>.push rd |>.push amount |>.push t.bits |>.push 0b0#1 |>.push rm
  | .sbcShReg c sf rn rd rs t rm =>
    Word.push 0#32 c.bits |>.push 0b0000110#7 |>.pushBit sf |>.push rn |>.push rd |>.push rs |>.push 0b0#1 |>.push t.bits |>.push 0b1#1 |>.push rm
  | .rscImm c sf rn rd rot imm8 =>
    Word.push 0#32 c.bits |>.push 0b0010111#7 |>.pushBit sf |>.push rn |>.push rd |>.push rot |>.push imm8
  | .rscShImm c sf rn rd amount t rm =>
    Word.push 0#32 c.bits |>.push 0b0000111#7 |>.pushBit sf |>.push rn |>.push rd |>.push amount |>.push t.bits |>.push 0b0#1 |>.push rm
  | .rscShReg c sf rn rd rs t rm =>
    Word.push 0#32 c.bits |>.push 0b0000111#7 |>.pushBit sf |>.push rn |>.push rd |>.push rs |>.push 0b0#1 |>.push t.bits |>.push 0b1#1 |>.push rm
  | .tstImm c rn rot imm8 =>
    Word.push 0#32 c.bits |>.push 0b00110001#8 |>.push rn |>.push 0b0000#4 |>.push rot |>.push imm8
  | .tstShImm c rn amount t rm =>
    Word.push 0#32 c.bits |>.push 0b00010001#8 |>.push rn |>.push 0b0000#4 |>.push amount |>.push t.bits |>.push 0b0#1 |>.push rm
  | .tstShReg c rn rs t rm =>
    Word.push 0#32 c.bits |>.push 0b00010001#8 |>.push rn |>.push 0b0000#4 |>.push rs |>.push 0b0#1 |>.push t.bits |>.push 0b1#1 |>.push rm
  | .teqImm c rn rot imm8 =>
    Word.push 0#32 c.bits |>.push 0b00110011#8 |>.push rn |>.push 0b0000#4 |>.push rot |>.push imm8
  | .teqShImm c rn amount t rm =>
    Word.push 0#32 c.bits |>.push 0b00010011#8 |>.push rn |>.push 0b0000#4 |>.push amount |>.push t.bits |>.push 0b0#1 |>.push rm
  | .teqShReg c rn rs t rm =>
    Word.push 0#32 c.bits |>.push 0b00010011#8 |>.push rn |>.push 0b0000#4 |>.push rs |>.push 0b0#1 |>.push t.bits |>.push 0b1#1 |>.push rm
  | .cmpImm c rn rot imm8 =>
    Word.push 0#32 c.bits |>.push 0b00110101#8 |>.push rn |>.push 0b0000#4 |>.push rot |>.push imm8
  | .cmpShImm c rn amount t rm =>
    Word.push 0#32 c.bits |>.push 0b00010101#8 |>.push rn |>.push 0b0000#4 |>.push amount |>.push t.bits |>.push 0b0#1 |>.push rm
  | .cmpShReg c rn rs t rm =>
    Word.push 0#32 c.bits |>.push 0b00010101#8 |>.push rn |>.push 0b0000#4 |>.push rs |>.push 0b0#1 |>.push t.bits |>.push 0b1#1 |>.push rm
  | .cmnImm c rn rot imm8 =>
    Word.push 0#32 c.bits |>.push 0b00110111#8 |>.push rn |>.push 0b0000#4 |>.push rot |>.push imm8
  | .cmnShImm c rn amount t rm =>
    Word.push 0#32 c.bits |>.push 0b00010111#8 |>.push rn |>.push 0b0000#4 |>.push amount |>.push t.bits |>.push 0b0#1 |>.push rm
  | .cmnShReg c rn rs t rm =>
    Word.push 0#32 c.bits |>.push 0b00010111#8 |>.push rn |>.push 0b0000#4 |>.push rs |>.push 0b0#1 |>.push t.bits |>.push 0b1#1 |>.push rm
  | .orrImm c sf rn rd rot imm8 =>
    Word.push 0#32 c.bits |>.push 0b0011100#7 |>.pushBit sf |>.push rn |>.push rd |>.push rot |>.push imm8
  | .orrShImm c sf rn rd amount t rm =>
    Word.push 0#32 c.bits |>.push 0b0001100#7 |>.pushBit sf |>.push rn |>.push rd |>.push amount |>.push t.bits |>.push 0b0#1 |>.push rm
  | .orrShReg c sf rn rd rs t rm =>
    Word.push 0#32 c.bits |>.push 0b0001100#7 |>.pushBit sf |>.push rn |>.push rd |>.push rs |>.push 0b0#1 |>.push t.bits |>.push 0b1#1 |>.push rm
  | .movImm c sf rd rot imm8 =>
    Word.push 0#32 c.bits |>.push 0b0011101#7 |>.pushBit sf |>.push 0b0000#4 |>.push rd |>.push rot |>.push imm8
  | .movShImm c sf rd amount t rm =>
    Word.push 0#32 c.bits |>.push 0b0001101#7 |>.pushBit sf |>.push 0b0000#4 |>.push rd |>.push amount |>.push t.bits |>.push 0b0#1 |>.push rm
  | .movShReg c sf rd rs t rm =>
    Word.push 0#32 c.bits |>.push 0b0001101#7 |>.pushBit sf |>.push 0b0000#4 |>.push rd |>.push rs |>.push 0b0#1 |>.push t.bits |>.push 0b1#1 |>.push rm
  | .bicImm c sf rn rd rot imm8 =>
    Word.push 0#32 c.bits |>.push 0b0011110#7 |>.pushBit sf |>.push rn |>.push rd |>.push rot |>.push imm8
  | .bicShImm c sf rn rd amount t rm =>
    Word.push 0#32 c.bits |>.push 0b0001110#7 |>.pushBit sf |>.push rn |>.push rd |>.push amount |>.push t.bits |>.push 0b0#1 |>.push rm
  | .bicShReg c sf rn rd rs t rm =>
    Word.push 0#32 c.bits |>.push 0b0001110#7 |>.pushBit sf |>.push rn |>.push rd |>.push rs |>.push 0b0#1 |>.push t.bits |>.push 0b1#1 |>.push rm
  | .mvnImm c sf rd rot imm8 =>
    Word.push 0#32 c.bits |>.push 0b0011111#7 |>.pushBit sf |>.push 0b0000#4 |>.push rd |>.push rot |>.push imm8
  | .mvnShImm c sf rd amount t rm =>
    Word.push 0#32 c.bits |>.push 0b0001111#7 |>.pushBit sf |>.push 0b0000#4 |>.push rd |>.push amount |>.push t.bits |>.push 0b0#1 |>.push rm
  | .mvnShReg c sf rd rs t rm =>
    Word.push 0#32 c.bits |>.push 0b0001111#7 |>.pushBit sf |>.push 0b0000#4 |>.push rd |>.push rs |>.push 0b0#1 |>.push t.bits |>.push 0b1#1 |>.push rm
  | .mul c sf rd rs rm =>
    Word.push 0#32 c.bits |>.push 0b0000000#7 |>.pushBit sf |>.push rd |>.push 0b0000#4 |>.push rs |>.push 0b1001#4 |>.push rm
  | .mla c sf rd rn rs rm =>
    Word.push 0#32 c.bits |>.push 0b0000001#7 |>.pushBit sf |>.push rd |>.push rn |>.push rs |>.push 0b1001#4 |>.push rm
  | .umull c sf rdHi rdLo rs rm =>
    Word.push 0#32 c.bits |>.push 0b0000100#7 |>.pushBit sf |>.push rdHi |>.push rdLo |>.push rs |>.push 0b1001#4 |>.push rm
  | .umlal c sf rdHi rdLo rs rm =>
    Word.push 0#32 c.bits |>.push 0b0000101#7 |>.pushBit sf |>.push rdHi |>.push rdLo |>.push rs |>.push 0b1001#4 |>.push rm
  | .smull c sf rdHi rdLo rs rm =>
    Word.push 0#32 c.bits |>.push 0b0000110#7 |>.pushBit sf |>.push rdHi |>.push rdLo |>.push rs |>.push 0b1001#4 |>.push rm
  | .smlal c sf rdHi rdLo rs rm =>
    Word.push 0#32 c.bits |>.push 0b0000111#7 |>.pushBit sf |>.push rdHi |>.push rdLo |>.push rs |>.push 0b1001#4 |>.push rm
  | .swp c rn rd rm =>
    Word.push 0#32 c.bits |>.push 0b00010000#8 |>.push rn |>.push rd |>.push 0b00001001#8 |>.push rm
  | .swpb c rn rd rm =>
    Word.push 0#32 c.bits |>.push 0b00010100#8 |>.push rn |>.push rd |>.push 0b00001001#8 |>.push rm
  | .bx c rm =>
    Word.push 0#32 c.bits |>.push 0b000100101111111111110001#24 |>.push rm
  | .mrs c spsr rd =>
    Word.push 0#32 c.bits |>.push 0b00010#5 |>.pushBit spsr |>.push 0b001111#6 |>.push rd |>.push 0b000000000000#12
  | .msrReg c spsr mask rm =>
    Word.push 0#32 c.bits |>.push 0b00010#5 |>.pushBit spsr |>.push 0b10#2 |>.push mask |>.push 0b111100000000#12 |>.push rm
  | .msrImm c spsr mask rot imm8 =>
    Word.push 0#32 c.bits |>.push 0b00110#5 |>.pushBit spsr |>.push 0b10#2 |>.push mask |>.push 0b1111#4 |>.push rot |>.push imm8
  | .ldrImm c u w rn rd imm12 =>
    Word.push 0#32 c.bits |>.push 0b0101#4 |>.pushBit u |>.push 0b0#1 |>.pushBit w |>.push 0b1#1 |>.push rn |>.push rd |>.push imm12
  | .ldrImmPost c u rn rd imm12 =>
    Word.push 0#32 c.bits |>.push 0b0100#4 |>.pushBit u |>.push 0b001#3 |>.push rn |>.push rd |>.push imm12
  | .ldrReg c u w rn rd amount t rm =>
    Word.push 0#32 c.bits |>.push 0b0111#4 |>.pushBit u |>.push 0b0#1 |>.pushBit w |>.push 0b1#1 |>.push rn |>.push rd |>.push amount |>.push t.bits |>.push 0b0#1 |>.push rm
  | .ldrRegPost c u rn rd amount t rm =>
    Word.push 0#32 c.bits |>.push 0b0110#4 |>.pushBit u |>.push 0b001#3 |>.push rn |>.push rd |>.push amount |>.push t.bits |>.push 0b0#1 |>.push rm
  | .strImm c u w rn rd imm12 =>
    Word.push 0#32 c.bits |>.push 0b0101#4 |>.pushBit u |>.push 0b0#1 |>.pushBit w |>.push 0b0#1 |>.push rn |>.push rd |>.push imm12
  | .strImmPost c u rn rd imm12 =>
    Word.push 0#32 c.bits |>.push 0b0100#4 |>.pushBit u |>.push 0b000#3 |>.push rn |>.push rd |>.push imm12
  | .strReg c u w rn rd amount t rm =>
    Word.push 0#32 c.bits |>.push 0b0111#4 |>.pushBit u |>.push 0b0#1 |>.pushBit w |>.push 0b0#1 |>.push rn |>.push rd |>.push amount |>.push t.bits |>.push 0b0#1 |>.push rm
  | .strRegPost c u rn rd amount t rm =>
    Word.push 0#32 c.bits |>.push 0b0110#4 |>.pushBit u |>.push 0b000#3 |>.push rn |>.push rd |>.push amount |>.push t.bits |>.push 0b0#1 |>.push rm
  | .ldrbImm c u w rn rd imm12 =>
    Word.push 0#32 c.bits |>.push 0b0101#4 |>.pushBit u |>.push 0b1#1 |>.pushBit w |>.push 0b1#1 |>.push rn |>.push rd |>.push imm12
  | .ldrbImmPost c u rn rd imm12 =>
    Word.push 0#32 c.bits |>.push 0b0100#4 |>.pushBit u |>.push 0b101#3 |>.push rn |>.push rd |>.push imm12
  | .ldrbReg c u w rn rd amount t rm =>
    Word.push 0#32 c.bits |>.push 0b0111#4 |>.pushBit u |>.push 0b1#1 |>.pushBit w |>.push 0b1#1 |>.push rn |>.push rd |>.push amount |>.push t.bits |>.push 0b0#1 |>.push rm
  | .ldrbRegPost c u rn rd amount t rm =>
    Word.push 0#32 c.bits |>.push 0b0110#4 |>.pushBit u |>.push 0b101#3 |>.push rn |>.push rd |>.push amount |>.push t.bits |>.push 0b0#1 |>.push rm
  | .strbImm c u w rn rd imm12 =>
    Word.push 0#32 c.bits |>.push 0b0101#4 |>.pushBit u |>.push 0b1#1 |>.pushBit w |>.push 0b0#1 |>.push rn |>.push rd |>.push imm12
  | .strbImmPost c u rn rd imm12 =>
    Word.push 0#32 c.bits |>.push 0b0100#4 |>.pushBit u |>.push 0b100#3 |>.push rn |>.push rd |>.push imm12
  | .strbReg c u w rn rd amount t rm =>
    Word.push 0#32 c.bits |>.push 0b0111#4 |>.pushBit u |>.push 0b1#1 |>.pushBit w |>.push 0b0#1 |>.push rn |>.push rd |>.push amount |>.push t.bits |>.push 0b0#1 |>.push rm
  | .strbRegPost c u rn rd amount t rm =>
    Word.push 0#32 c.bits |>.push 0b0110#4 |>.pushBit u |>.push 0b100#3 |>.push rn |>.push rd |>.push amount |>.push t.bits |>.push 0b0#1 |>.push rm
  | .ldrtImm c u rn rd imm12 =>
    Word.push 0#32 c.bits |>.push 0b0100#4 |>.pushBit u |>.push 0b011#3 |>.push rn |>.push rd |>.push imm12
  | .ldrtReg c u rn rd amount t rm =>
    Word.push 0#32 c.bits |>.push 0b0110#4 |>.pushBit u |>.push 0b011#3 |>.push rn |>.push rd |>.push amount |>.push t.bits |>.push 0b0#1 |>.push rm
  | .strtImm c u rn rd imm12 =>
    Word.push 0#32 c.bits |>.push 0b0100#4 |>.pushBit u |>.push 0b010#3 |>.push rn |>.push rd |>.push imm12
  | .strtReg c u rn rd amount t rm =>
    Word.push 0#32 c.bits |>.push 0b0110#4 |>.pushBit u |>.push 0b010#3 |>.push rn |>.push rd |>.push amount |>.push t.bits |>.push 0b0#1 |>.push rm
  | .ldrbtImm c u rn rd imm12 =>
    Word.push 0#32 c.bits |>.push 0b0100#4 |>.pushBit u |>.push 0b111#3 |>.push rn |>.push rd |>.push imm12
  | .ldrbtReg c u rn rd amount t rm =>
    Word.push 0#32 c.bits |>.push 0b0110#4 |>.pushBit u |>.push 0b111#3 |>.push rn |>.push rd |>.push amount |>.push t.bits |>.push 0b0#1 |>.push rm
  | .strbtImm c u rn rd imm12 =>
    Word.push 0#32 c.bits |>.push 0b0100#4 |>.pushBit u |>.push 0b110#3 |>.push rn |>.push rd |>.push imm12
  | .strbtReg c u rn rd amount t rm =>
    Word.push 0#32 c.bits |>.push 0b0110#4 |>.pushBit u |>.push 0b110#3 |>.push rn |>.push rd |>.push amount |>.push t.bits |>.push 0b0#1 |>.push rm
  | .ldrhImm c ix u rn rd immH immL =>
    Word.push 0#32 c.bits |>.push 0b000#3 |>.pushBit ix.p |>.pushBit u |>.push 0b1#1 |>.pushBit ix.w |>.push 0b1#1 |>.push rn |>.push rd |>.push immH |>.push 0b1011#4 |>.push immL
  | .ldrhReg c ix u rn rd rm =>
    Word.push 0#32 c.bits |>.push 0b000#3 |>.pushBit ix.p |>.pushBit u |>.push 0b0#1 |>.pushBit ix.w |>.push 0b1#1 |>.push rn |>.push rd |>.push 0b00001011#8 |>.push rm
  | .strhImm c ix u rn rd immH immL =>
    Word.push 0#32 c.bits |>.push 0b000#3 |>.pushBit ix.p |>.pushBit u |>.push 0b1#1 |>.pushBit ix.w |>.push 0b0#1 |>.push rn |>.push rd |>.push immH |>.push 0b1011#4 |>.push immL
  | .strhReg c ix u rn rd rm =>
    Word.push 0#32 c.bits |>.push 0b000#3 |>.pushBit ix.p |>.pushBit u |>.push 0b0#1 |>.pushBit ix.w |>.push 0b0#1 |>.push rn |>.push rd |>.push 0b00001011#8 |>.push rm
  | .ldrsbImm c ix u rn rd immH immL =>
    Word.push 0#32 c.bits |>.push 0b000#3 |>.pushBit ix.p |>.pushBit u |>.push 0b1#1 |>.pushBit ix.w |>.push 0b1#1 |>.push rn |>.push rd |>.push immH |>.push 0b1101#4 |>.push immL
  | .ldrsbReg c ix u rn rd rm =>
    Word.push 0#32 c.bits |>.push 0b000#3 |>.pushBit ix.p |>.pushBit u |>.push 0b0#1 |>.pushBit ix.w |>.push 0b1#1 |>.push rn |>.push rd |>.push 0b00001101#8 |>.push rm
  | .ldrshImm c ix u rn rd immH immL =>
    Word.push 0#32 c.bits |>.push 0b000#3 |>.pushBit ix.p |>.pushBit u |>.push 0b1#1 |>.pushBit ix.w |>.push 0b1#1 |>.push rn |>.push rd |>.push immH |>.push 0b1111#4 |>.push immL
  | .ldrshReg c ix u rn rd rm =>
    Word.push 0#32 c.bits |>.push 0b000#3 |>.pushBit ix.p |>.pushBit u |>.push 0b0#1 |>.pushBit ix.w |>.push 0b1#1 |>.push rn |>.push rd |>.push 0b00001111#8 |>.push rm
  | .ldm c p u sf w rn list =>
    Word.push 0#32 c.bits |>.push 0b100#3 |>.pushBit p |>.pushBit u |>.pushBit sf |>.pushBit w |>.push 0b1#1 |>.push rn |>.push list
  | .stm c p u sf w rn list =>
    Word.push 0#32 c.bits |>.push 0b100#3 |>.pushBit p |>.pushBit u |>.pushBit sf |>.pushBit w |>.push 0b0#1 |>.push rn |>.push list
  | .b c imm24 =>
    Word.push 0#32 c.bits |>.push 0b1010#4 |>.push imm24
  | .bl c imm24 =>
    Word.push 0#32 c.bits |>.push 0b1011#4 |>.push imm24
  | .swi c imm24 =>
    Word.push 0#32 c.bits |>.push 0b1111#4 |>.push imm24
  | .undefined c hi lo =>
    Word.push 0#32 c.bits |>.push 0b011#3 |>.push hi |>.push 0b1#1 |>.push lo
  | .ldc c p u n w rn crd cp off8 =>
    Word.push 0#32 c.bits |>.push 0b110#3 |>.pushBit p |>.pushBit u |>.pushBit n |>.pushBit w |>.push 0b1#1 |>.push rn |>.push crd |>.push cp |>.push off8
  | .stc c p u n w rn crd cp off8 =>
    Word.push 0#32 c.bits |>.push 0b110#3 |>.pushBit p |>.pushBit u |>.pushBit n |>.pushBit w |>.push 0b0#1 |>.push rn |>.push crd |>.push cp |>.push off8
  | .cdp c op1 crn crd cp op2 crm =>
    Word.push 0#32 c.bits |>.push 0b1110#4 |>.push op1 |>.push crn |>.push crd |>.push cp |>.push op2 |>.push 0b0#1 |>.push crm
  | .mcr c op1 crn rd cp op2 crm =>
    Word.push 0#32 c.bits |>.push 0b1110#4 |>.push op1 |>.push 0b0#1 |>.push crn |>.push rd |>.push cp |>.push op2 |>.push 0b1#1 |>.push crm
  | .mrc c op1 crn rd cp op2 crm =>
    Word.push 0#32 c.bits |>.push 0b1110#4 |>.push op1 |>.push 0b1#1 |>.push crn |>.push rd |>.push cp |>.push op2 |>.push 0b1#1 |>.push crm

end Sys2Proof
end

