-- ==== Sys2Proof/Machine/State.lean ====
section
/-! DEFINITION. The state of the machine, as plain data; the reasons a step can stop; the state after reset. -/

namespace Sys2Proof.Machine

/-- The seven modes of Tab. 2 (R21, R280). -/
inductive Mode where
  | usr | fiq | irq | svc | abt | und | sys
deriving DecidableEq, Repr

/-- The seven exceptions of Tab. 3 (R251). -/
inductive Exc where
  | reset | undefined | swi | prefetchAbort | dataAbort | irq | fiq
deriving DecidableEq, Repr

/-- A physical general register: R0 to R14 of User and System are 0 to 14, R8_fiq to R14_fiq are 15 to 21, then R13 and R14
of IRQ, Supervisor, Abort and Undefined in that order (R22). With PC that is the 31 registers of R22. -/
abbrev PReg := Fin 30

/-- Which SPSR: fiq, irq, svc, abt, und are 0 to 4 (R22, R36). -/
abbrev SpsrIdx := Fin 5

/-- Memory: the bytes that differ from what an unlisted address reads as, by strictly rising address (log 4). -/
abbrev Memory := List Host.Cell

/-- One word fetched ahead: its bits, or the mark of a fetch that aborted (R8, R264). -/
inductive Fetched where
  | word (w : Word)
  | aborted
deriving DecidableEq, Repr

/-- The two instructions fetched ahead of the one about to execute (R40(a), R73): the one at `pc` and the one at `pc + 4`. -/
structure Pipeline where
  first : Fetched
  second : Fetched
deriving DecidableEq, Repr

/-- What the world asks of the core at one instruction boundary (R8, R260, R265, R266; log 10). -/
structure Inputs where
  reset : Bool
  fiq : Bool
  irq : Bool
deriving DecidableEq, Repr

/-- Nothing is asked. -/
def Inputs.quiet : Inputs := ⟨false, false, false⟩

/-- Everything the spec gives the machine, and the model's own `io` and `draws` (INVENTORY.md, State). -/
structure State where
  /-- The thirty general registers below PC (R20, R22). -/
  regs : Vector Word 30
  /-- The address of the instruction about to execute, R7's `iaddr` (R27). -/
  pc : Word
  /-- The current program status register (R30). -/
  cpsr : Word
  /-- The five saved program status registers (R36). -/
  spsr : Vector Word 5
  /-- Memory (R61, R66). -/
  mem : Memory
  /-- The instructions fetched ahead; `none` right after a jump, an exception entry or reset (R73). -/
  pipe : Option Pipeline
  /-- The instruction before this one was an LDM of the User bank that completed (R310(c), log 20). -/
  bankHazard : Bool
  /-- What is asked at the coming boundaries, the next one first; quiet when the list is empty (R266, log 10). -/
  inputs : List Inputs
  /-- The model's own: the device accesses made so far, newest first (R69, log 24). -/
  io : List IoEvent
  /-- The model's own: how many free values have been drawn (log 12). -/
  draws : Nat
  /-- The parameters of R5 that the spec leaves OPEN (logs 5, 7, 8). No instruction changes them. -/
  platform : Platform
deriving DecidableEq, Repr

/-- Where the spec says "the model faults". -/
inductive Fault where
  /-- Raised by MSR: it would change T, which the source calls undefined behaviour (R225, U1). Safe: the model stops. -/
  | psrThumbBit
  /-- Raised by MSR and by an exception return: an illegal value reaches M[4:0] (R226, U2). Safe: the model stops. -/
  | illegalMode
  /-- Raised by MRS and MSR naming SPSR, by a data-processing instruction with S and Rd = R15, and by LDM with ^ and R15, in
  User or System mode, which have no SPSR (R224, R148, R215, U3). Safe: the model stops. -/
  | noSpsr
deriving DecidableEq, Repr

/-- Where the spec says "the model refuses" or UNPREDICTABLE. -/
inductive Refusal where
  /-- Raised by `exec` for an instruction that has no meaning yet. Safe. -/
  | notModelled (mnemonic : String)
  /-- Raised by `step`: the word is no instruction (R106 to R110). Safe. -/
  | decode (reason : DecodeError)
  /-- Raised by every meaning whose operands the spec calls UNPREDICTABLE, when the condition passes (R146, R181, R182, R187 to
  R192, R198, R215, R217, R221, R222, R247). Safe. -/
  | unpredictable (reason : Restriction)
  /-- Raised by LDRH, LDRSH, STRH at an odd address (R64, R189 to R191, U5). Safe. -/
  | oddHalfword
  /-- Raised by BX to an address with bits 1:0 = 10 (R134, U22). Safe. -/
  | bxTarget
  /-- Raised by LDM or STM of the User bank in User or System mode (R215(b), (c)). Safe. -/
  | userBankUnprivileged
  /-- Raised by an instruction at 0xFFFFFFFC that would be followed sequentially, and by B and BL to a target past 0xFFFFFFFC (R29,
  U14, D19, log 18). Safe. -/
  | pcWrap
  /-- Raised by `step`: a banked register touched right after an LDM of the User bank (R310(c), U10, log 20). Safe. -/
  | userBankHazard
  /-- Raised by `step`: T = 1, and no THUMB instruction is in the spec (R4, R91, U23, log 23). Safe. -/
  | thumbState
deriving DecidableEq, Repr

/-- The whole 32-bit space as plain memory, ABORT_BASE = updated, IRQ_ENTRY_SETS_F = false (logs 5, 7, 8). -/
def allMemory : Platform :=
  { regions := [⟨0, 2 ^ 32, .memory⟩], abortBaseUpdated := true, irqEntrySetsF := false }

/-- The machine right after reset (R45, R301): PC at the reset vector, Supervisor mode, I = F = 1, T = 0, memory with nothing
listed. The other values are the model's: registers, SPSRs, N Z C V and the reserved bits are zero (logs 1 to 5, 10). -/
def State.reset : State where
  regs := Vector.replicate 30 0#32
  pc := 0#32
  cpsr := 0x000000D3#32
  spsr := Vector.replicate 5 0#32
  mem := []
  pipe := none
  bankHazard := false
  inputs := []
  io := []
  draws := 0
  platform := allMemory

end Sys2Proof.Machine
end

