-- ==== Sys2Proof/Machine/Memory.lean ====
section
/-! DEFINITION. Memory as a canonical list of bytes: reading and writing one byte, and the words of bytes (R60, R61). -/

namespace Sys2Proof.Machine

/-- What an address that is not listed reads as (log 4: DESIGN CHOICE, unsafe). -/
def Memory.unlisted : Byte := 0#8

/-- The byte at an address. -/
def Memory.read : Memory → Nat → Byte
  | [], _ => Memory.unlisted
  | (x, b) :: m, a => if x = a then b else Memory.read m a

/-- The memory without the entry of an address. -/
def Memory.erase : Memory → Nat → Memory
  | [], _ => []
  | (x, b) :: m, a => if x = a then Memory.erase m a else (x, b) :: Memory.erase m a

/-- The memory with an entry put before the first larger address. -/
def Memory.insert : Memory → Nat → Byte → Memory
  | [], a, v => [(a, v)]
  | (x, b) :: m, a, v => if a < x then (a, v) :: (x, b) :: m else (x, b) :: Memory.insert m a v

/-- The memory after a byte is written; writing what an unlisted address reads as leaves the address unlisted. -/
def Memory.write (m : Memory) (a : Nat) (v : Byte) : Memory :=
  if v = Memory.unlisted then m.erase a else (m.erase a).insert a v

/-- The canonical form: addresses strictly rising and below 2^32, no entry equal to what an unlisted address reads as. -/
def Memory.wf : Memory → Bool
  | [] => true
  | (x, b) :: m => (b != Memory.unlisted) && decide (x < 2 ^ 32) && m.all (fun c => decide (x < c.1)) && Memory.wf m

/-- The address `k` bytes after `a`, modulo 2^32 (R61, R66). -/
def byteAddr (a : Word) (k : Nat) : Nat := (a + BitVec.ofNat 32 k).toNat

/-- Byte `k` of a word, byte 0 being bits 7:0 (R61). -/
def byteOf (v : Word) (k : Nat) : Byte := v.extractLsb' (8 * k) 8

/-- `MemRead` on plain memory: little-endian, zero-extended to a word (R60, R61). -/
def Memory.readSize (m : Memory) (a : Word) : AccessSize → Word
  | .byte => (m.read (byteAddr a 0)).setWidth 32
  | .half => (m.read (byteAddr a 1) ++ m.read (byteAddr a 0)).setWidth 32
  | .word => wordOfBytes (m.read (byteAddr a 0)) (m.read (byteAddr a 1)) (m.read (byteAddr a 2)) (m.read (byteAddr a 3))

/-- `MemWrite` on plain memory: the low bytes of `v`, little-endian (R60, R61). -/
def Memory.writeSize (m : Memory) (a : Word) (v : Word) : AccessSize → Memory
  | .byte => m.write (byteAddr a 0) (byteOf v 0)
  | .half => (m.write (byteAddr a 0) (byteOf v 0)).write (byteAddr a 1) (byteOf v 1)
  | .word => (((m.write (byteAddr a 0) (byteOf v 0)).write (byteAddr a 1) (byteOf v 1)).write
      (byteAddr a 2) (byteOf v 2)).write (byteAddr a 3) (byteOf v 3)

end Sys2Proof.Machine
end

