-- ==== Sys2Proof/Machine/Flags.lean ====
section
/-! DEFINITION. The status register: its fields and how they are rewritten (R30); the condition test (R121); the arithmetic
and logical units with every flag computation (R7, R147, R151 to R166). -/

namespace Sys2Proof.Machine

/-- N (R30). -/
def psrN (w : Word) : Bool := bitAt w 31
/-- Z (R30). -/
def psrZ (w : Word) : Bool := bitAt w 30
/-- C (R30). -/
def psrC (w : Word) : Bool := bitAt w 29
/-- V (R30). -/
def psrV (w : Word) : Bool := bitAt w 28
/-- I: 1 disables IRQ (R30, R32). -/
def psrI (w : Word) : Bool := bitAt w 7
/-- F: 1 disables FIQ (R30, R32). -/
def psrF (w : Word) : Bool := bitAt w 6
/-- T: 1 is THUMB state (R30, R33). -/
def psrT (w : Word) : Bool := bitAt w 5
/-- M[4:0] (R30, R34). -/
def psrM (w : Word) : BitVec 5 := field w 0 5

/-- A status word from its fields, bit 31 down to bit 0 (R30). -/
def psrPack (n z c v : Bool) (reserved : BitVec 20) (i f t : Bool) (m : BitVec 5) : Word :=
  Word.pushBit 0#32 n |>.pushBit z |>.pushBit c |>.pushBit v |>.push reserved |>.pushBit i |>.pushBit f |>.pushBit t |>.push m

/-- The status word with new condition flags. -/
def psrSetFlags (w : Word) (n z c v : Bool) : Word :=
  psrPack n z c v (field w 8 20) (psrI w) (psrF w) (psrT w) (psrM w)

/-- The status word with a new T. -/
def psrSetT (w : Word) (t : Bool) : Word :=
  psrPack (psrN w) (psrZ w) (psrC w) (psrV w) (field w 8 20) (psrI w) (psrF w) t (psrM w)

/-- The status word on exception entry (R256): M, F given, T cleared, I set, the rest unchanged. -/
def psrEnter (w : Word) (f : Bool) (m : BitVec 5) : Word :=
  psrPack (psrN w) (psrZ w) (psrC w) (psrV w) (field w 8 20) true f false m

/-- The bits of a status register that hold a named field: all but 27:8 (R30, R35). -/
def psrNamed : Word := 0xF00000FF#32

/-- A status register as an instruction reads it: bits 27:8 come from `free`, an unspecified value (R35, log 13). -/
def psrRead (w free : Word) : Word := (w &&& psrNamed) ||| (free &&& ~~~psrNamed)

/-- A status register after a write of `v` under a mask: bits 27:8 ignore the write (R35, R222). -/
def psrWrite (w v mask : Word) : Word := (w &&& ~~~(mask &&& psrNamed)) ||| (v &&& (mask &&& psrNamed))

/-- `bytemask` of R222: the bytes named by the field mask f s x c. -/
def psrByteMask (mask : BitVec 4) : Word :=
  (if mask.getLsbD 3 then 0xFF000000#32 else 0#32) ||| (if mask.getLsbD 2 then 0x00FF0000#32 else 0#32) |||
  (if mask.getLsbD 1 then 0x0000FF00#32 else 0#32) ||| (if mask.getLsbD 0 then 0x000000FF#32 else 0#32)

/-- `CondPassed` (R121), from the flags. -/
def condHolds (n z c v : Bool) : Cond → Bool
  | .eq => z
  | .ne => !z
  | .cs => c
  | .cc => !c
  | .mi => n
  | .pl => !n
  | .vs => v
  | .vc => !v
  | .hi => c && !z
  | .ls => !c || z
  | .ge => n == v
  | .lt => n != v
  | .gt => !z && (n == v)
  | .le => z || (n != v)
  | .al => true

/-- `CondPassed` (R121) on a status word. -/
def condPassed (c : Cond) (w : Word) : Bool := condHolds (psrN w) (psrZ w) (psrC w) (psrV w) c

/-- A result with the four flags that go with it. -/
structure AluResult where
  value : Word
  n : Bool
  z : Bool
  c : Bool
  v : Bool
deriving DecidableEq, Repr

/-- A second operand with the shifter's carry-out, `(op2, sco)` of R143. -/
structure Shifted where
  value : Word
  carry : Bool
deriving DecidableEq, Repr

/-- `AddWithCarry` (R7): the sum modulo 2^32, the unsigned carry, the signed overflow. -/
def addWithCarry (a b : Word) (c : Bool) : Word × Bool × Bool :=
  let usum := a.toNat + b.toNat + c.toNat
  let ssum := a.toInt + b.toInt + (c.toNat : Int)
  (BitVec.ofNat 32 usum, decide (2 ^ 32 ≤ usum), decide (ssum < -(2 ^ 31) ∨ 2 ^ 31 ≤ ssum))

/-- The logical group of R147: N and Z from the result, C from the shifter, V kept. -/
def logicalResult (r : Word) (sco vOld : Bool) : AluResult := ⟨r, bitAt r 31, r == 0#32, sco, vOld⟩

/-- The addition and subtraction groups of R147: all four flags from `AddWithCarry`. -/
def arithResult (a b : Word) (c : Bool) : AluResult :=
  let r := addWithCarry a b c
  ⟨r.1, bitAt r.1 31, r.1 == 0#32, r.2.1, r.2.2⟩

/-- AND and TST (R151, R159). The arguments of every unit: Rn, the second operand, the C and V flags before. -/
def aluAnd (a : Word) (o : Shifted) (_c v : Bool) : AluResult := logicalResult (a &&& o.value) o.carry v
/-- EOR and TEQ (R152, R160). -/
def aluEor (a : Word) (o : Shifted) (_c v : Bool) : AluResult := logicalResult (a ^^^ o.value) o.carry v
/-- SUB and CMP (R153, R161). -/
def aluSub (a : Word) (o : Shifted) (_c _v : Bool) : AluResult := arithResult a (~~~o.value) true
/-- RSB (R154). -/
def aluRsb (a : Word) (o : Shifted) (_c _v : Bool) : AluResult := arithResult o.value (~~~a) true
/-- ADD and CMN (R155, R162). -/
def aluAdd (a : Word) (o : Shifted) (_c _v : Bool) : AluResult := arithResult a o.value false
/-- ADC (R156). -/
def aluAdc (a : Word) (o : Shifted) (c _v : Bool) : AluResult := arithResult a o.value c
/-- SBC (R157). -/
def aluSbc (a : Word) (o : Shifted) (c _v : Bool) : AluResult := arithResult a (~~~o.value) c
/-- RSC (R158). -/
def aluRsc (a : Word) (o : Shifted) (c _v : Bool) : AluResult := arithResult o.value (~~~a) c
/-- ORR (R163). -/
def aluOrr (a : Word) (o : Shifted) (_c v : Bool) : AluResult := logicalResult (a ||| o.value) o.carry v
/-- BIC (R165). -/
def aluBic (a : Word) (o : Shifted) (_c v : Bool) : AluResult := logicalResult (a &&& ~~~o.value) o.carry v
/-- MOV (R164): Rn is not used. -/
def aluMov (_a : Word) (o : Shifted) (_c v : Bool) : AluResult := logicalResult o.value o.carry v
/-- MVN (R166): Rn is not used. -/
def aluMvn (_a : Word) (o : Shifted) (_c v : Bool) : AluResult := logicalResult (0xFFFFFFFF#32 ^^^ o.value) o.carry v

end Sys2Proof.Machine
end

