-- ==== Sys2Proof/Machine/Ops.lean ====
section
/-! DEFINITION. The named operations: modes and register banks (R21, R22), jumps and the advance of PC (R28, R29), memory
accesses with their aborts (R61, R71), taking an exception (R256) and returning from one (R275). -/

namespace Sys2Proof.Machine

/-- The mode number (R21). -/
def Mode.bits : Mode → BitVec 5
  | .usr => 0b10000#5
  | .fiq => 0b10001#5
  | .irq => 0b10010#5
  | .svc => 0b10011#5
  | .abt => 0b10111#5
  | .und => 0b11011#5
  | .sys => 0b11111#5

/-- The mode of a number; the other 25 values are no mode (R34). -/
def Mode.ofBits (b : BitVec 5) : Option Mode :=
  match b.toNat with
  | 0b10000 => some .usr
  | 0b10001 => some .fiq
  | 0b10010 => some .irq
  | 0b10011 => some .svc
  | 0b10111 => some .abt
  | 0b11011 => some .und
  | 0b11111 => some .sys
  | _ => none

/-- The number is one of the seven modes (R34, R226). -/
def legalMode (b : BitVec 5) : Bool := (Mode.ofBits b).isSome

/-- `bank` of R22: the physical register that `x[i]` names in a mode, for `i` from 0 to 14. -/
def bank (m : Mode) (i : RegNum) : PReg :=
  match m with
  | .usr => Fin.ofNat 30 i.toNat
  | .sys => Fin.ofNat 30 i.toNat
  | .fiq => if i.toNat < 8 then Fin.ofNat 30 i.toNat else Fin.ofNat 30 (i.toNat + 7)
  | .irq => if i.toNat < 13 then Fin.ofNat 30 i.toNat else Fin.ofNat 30 (i.toNat + 9)
  | .svc => if i.toNat < 13 then Fin.ofNat 30 i.toNat else Fin.ofNat 30 (i.toNat + 11)
  | .abt => if i.toNat < 13 then Fin.ofNat 30 i.toNat else Fin.ofNat 30 (i.toNat + 13)
  | .und => if i.toNat < 13 then Fin.ofNat 30 i.toNat else Fin.ofNat 30 (i.toNat + 15)

/-- The SPSR of a mode; User and System have none (R22, R36). -/
def Mode.spsrIdx : Mode → Option SpsrIdx
  | .usr => none
  | .sys => none
  | .fiq => some 0
  | .irq => some 1
  | .svc => some 2
  | .abt => some 3
  | .und => some 4

/-- The current mode. A CPSR with an illegal mode is reached by no run (log 29); it then reads as User. -/
def State.mode (s : State) : Mode := (Mode.ofBits (psrM s.cpsr)).getD .usr

/-- `InPrivilegedMode` (R7, R280). -/
def State.privileged (s : State) : Bool := s.mode != .usr

/-- THUMB state (R33). -/
def State.thumb (s : State) : Bool := psrT s.cpsr

/-! The updates of single pieces of state. -/

/-- Write a physical register. -/
def State.setPReg (s : State) (p : PReg) (v : Word) : State := { s with regs := s.regs.set p v }
/-- Write PC alone. -/
def State.setPc (s : State) (v : Word) : State := { s with pc := v }
/-- Write CPSR. -/
def State.setCpsr (s : State) (v : Word) : State := { s with cpsr := v }
/-- Write one SPSR. -/
def State.setSpsr (s : State) (k : SpsrIdx) (v : Word) : State := { s with spsr := s.spsr.set k v }
/-- Write memory. -/
def State.setMem (s : State) (m : Memory) : State := { s with mem := m }
/-- Write the instructions fetched ahead. -/
def State.setPipe (s : State) (p : Option Pipeline) : State := { s with pipe := p }
/-- Mark or clear the User-bank hazard. -/
def State.setHazard (s : State) (b : Bool) : State := { s with bankHazard := b }
/-- Write the coming inputs. -/
def State.setInputs (s : State) (l : List Inputs) : State := { s with inputs := l }
/-- Record a device access. -/
def State.addIo (s : State) (e : IoEvent) : State := { s with io := e :: s.io }
/-- Count `n` free values as drawn (log 12). -/
def State.draw (s : State) (n : Nat) : State := { s with draws := s.draws + n }

/-! Registers. -/

/-- The value of a physical register. -/
def State.preg (s : State) (p : PReg) : Word := s.regs[p]

/-- `x[i]` (R7, R22, R27): R15 reads the instruction's address plus 8. -/
def State.reg (s : State) (i : RegNum) : Word :=
  if i = pcNum then s.pc + 8#32 else s.preg (bank s.mode i)

/-- `xu[i]` (R7), the User copy; R15 has one copy. -/
def State.userReg (s : State) (i : RegNum) : Word :=
  if i = pcNum then s.pc + 8#32 else s.preg (bank .usr i)

/-- The value STR and STM store from a register: R15 stores the instruction's address plus 12 (R27, R186, R216, log 32). -/
def State.storedReg (s : State) (i : RegNum) : Word := if i = pcNum then s.pc + 12#32 else s.reg i

/-- The value STM with ^ stores: the User copy, R15 as in `storedReg` (R215(c)). -/
def State.storedUserReg (s : State) (i : RegNum) : Word := if i = pcNum then s.pc + 12#32 else s.userReg i

/-- The address with bits 1:0 cleared (R28, R64). -/
def alignWord (v : Word) : Word := v &&& 0xFFFFFFFC#32

/-- The address with bit 0 cleared (R134, R148). -/
def alignHalf (v : Word) : Word := v &&& 0xFFFFFFFE#32

/-- `pc <- v`: the next instruction is fetched from `v`, and the instructions fetched ahead are dropped (R7, R73, R308). -/
def State.branchTo (s : State) (v : Word) : State := (s.setPc v).setPipe none

/-- `x[i] <- v` (R7): a write of R15 is a jump to `v` with bits 1:0 ignored (R28). -/
def State.setReg (s : State) (i : RegNum) (v : Word) : State :=
  if i = pcNum then s.branchTo (alignWord v) else s.setPReg (bank s.mode i) v

/-- The outcome type of every meaning. -/
abbrev Result := Host.Outcome State Fault Refusal

/-- The end of an instruction that does not write PC: `iaddr + 4` is next (R28). Past the top of the address space the
spec gives no successor (R29, log 18). -/
def advance (s : State) : Result :=
  if 0xFFFFFFFC#32 ≤ s.pc then .refused .pcWrap else .next (s.setPc (s.pc + 4#32))

/-- `x[d] <- v`, then on to the next instruction (R28): a write of R15 is the jump itself. -/
def finishReg (d : RegNum) (v : Word) (s : State) : Result :=
  if d = pcNum then .next (s.setReg d v) else advance (s.setReg d v)

/-! Memory accesses. -/

/-- `Exists(addr)` (R71): the eight vector words always exist (D4, R302, log 34). -/
def existsAt (p : Platform) (a : Nat) : Bool := decide (a < 0x20) || p.regions.any (·.contains a)

/-- The address belongs to a device range, and to no memory range (R69); the vector words are memory. -/
def deviceAt (p : Platform) (a : Nat) : Bool :=
  !decide (a < 0x20) && !p.regions.any (fun r => r.contains a && r.kind == .memory) &&
    p.regions.any (fun r => r.contains a && r.kind == .device)

/-- The addresses of an access (R61). -/
def accessAddrs (a : Word) (n : AccessSize) : List Nat := (List.range n.bytes).map (byteAddr a)

/-- Every byte of the access exists (R61). -/
def State.accessExists (s : State) (a : Word) (n : AccessSize) : Bool := (accessAddrs a n).all (existsAt s.platform)

/-- Some byte of the access belongs to a device (R69, log 24). -/
def State.accessDevice (s : State) (a : Word) (n : AccessSize) : Bool := (accessAddrs a n).any (deviceAt s.platform)

/-- The low bytes of a value that an access carries. -/
def sizeMask : AccessSize → Word
  | .byte => 0x000000FF#32
  | .half => 0x0000FFFF#32
  | .word => 0xFFFFFFFF#32

/-- `MemRead` (R61): `none` where a byte does not exist; memory's bytes; or a device's answer, recorded (R69). -/
def memRead (s : State) (a : Word) (n : AccessSize) : Option (Word × State) :=
  if s.accessExists a n = false then none
  else if s.accessDevice a n then some (Config.deviceRead s.io a n &&& sizeMask n, s.addIo (.read a n))
  else some (s.mem.readSize a n, s)

/-- `MemWrite` (R61): `none` where a byte does not exist, and then no byte is written; a device swallows the write, which is
recorded (R69). -/
def memWrite (s : State) (a : Word) (n : AccessSize) (v : Word) : Option State :=
  if s.accessExists a n = false then none
  else if s.accessDevice a n then some (s.addIo (.write a n (v &&& sizeMask n)))
  else some (s.setMem (s.mem.writeSize a v n))

/-! Exceptions. -/

/-- The mode an exception enters (Tab. 3, R251). -/
def Exc.mode : Exc → Mode
  | .reset => .svc
  | .undefined => .und
  | .swi => .svc
  | .prefetchAbort => .abt
  | .dataAbort => .abt
  | .irq => .irq
  | .fiq => .fiq

/-- The vector of an exception (Tab. 3, R251). -/
def Exc.vector : Exc → Word
  | .reset => 0x00000000#32
  | .undefined => 0x00000004#32
  | .swi => 0x00000008#32
  | .prefetchAbort => 0x0000000C#32
  | .dataAbort => 0x00000010#32
  | .irq => 0x00000018#32
  | .fiq => 0x0000001C#32

/-- What the link register holds beyond `A` (Tab. 3, R251, R252), in ARM or THUMB state. -/
def Exc.linkOffset (t : Bool) : Exc → Word
  | .reset => 0#32
  | .undefined => if t then 2#32 else 4#32
  | .swi => if t then 2#32 else 4#32
  | .prefetchAbort => 4#32
  | .dataAbort => 8#32
  | .irq => 4#32
  | .fiq => 4#32

/-- The F bit after entry (R257, log 8). -/
def Exc.newF (p : Platform) (f : Bool) : Exc → Bool
  | .reset => true
  | .fiq => true
  | .irq => f || p.irqEntrySetsF
  | .undefined => f
  | .swi => f
  | .prefetchAbort => f
  | .dataAbort => f

/-- `SPSR_m <- v` for the mode `m`; nothing where the mode has none. -/
def State.setModeSpsr (s : State) (m : Mode) (v : Word) : State :=
  match m.spsrIdx with
  | none => s
  | some k => s.setSpsr k v

/-- Taking an exception (R256): the link value into R14 of the new mode, CPSR into its SPSR, M, T, I, F, and PC at the vector.
`s.pc` is the address `A` of R252. -/
def State.takeException (s : State) (e : Exc) : State :=
  (((s.setPReg (bank e.mode 14#4) (s.pc + e.linkOffset s.thumb)).setModeSpsr e.mode s.cpsr).setCpsr
    (psrEnter s.cpsr (e.newF s.platform (psrF s.cpsr)) e.mode.bits)).branchTo e.vector

/-- Thirty registers of free values (log 11). Irreducible, so that no comparison of states unfolds it. -/
@[irreducible] def freeRegs (n : Nat) : Vector Word 30 := Vector.ofFn fun p : Fin 30 => Config.freeWord (n + p)

/-- Five SPSRs of free values, their reserved bits zero (logs 3, 11). Irreducible likewise. -/
@[irreducible] def freeSpsrs (n : Nat) : Vector Word 5 :=
  Vector.ofFn fun k : Fin 5 => Config.freeWord (n + k) &&& psrNamed

/-- A reset during a run (R260, R301, R45; log 11): Supervisor mode, ARM state, I = F = 1, PC at the reset vector; every
register, every SPSR and N Z C V become free values; memory, the platform and the device history stay. -/
def State.takeReset (s : State) : State :=
  { s with
    regs := freeRegs s.draws
    spsr := freeSpsrs (s.draws + 30)
    cpsr := psrSetFlags (psrEnter s.cpsr true Mode.svc.bits) (psrN (Config.freeWord (s.draws + 35)))
      (psrZ (Config.freeWord (s.draws + 35))) (psrC (Config.freeWord (s.draws + 35))) (psrV (Config.freeWord (s.draws + 35)))
    pc := Exc.reset.vector
    pipe := none
    draws := s.draws + 36 }

/-- The SPSR of the current mode (R36). -/
def State.currentSpsr (s : State) : Option Word :=
  match s.mode.spsrIdx with
  | none => none
  | some k => some s.spsr[k]

/-- Returning from an exception (R148, R275): `CPSR <- SPSR; pc <- v`, the low bits of `v` ignored as the restored T says
(log 21). No SPSR, or an illegal mode in it, is a fault (U2, U3). -/
def exceptionReturn (v : Word) (s : State) : Result :=
  match s.currentSpsr with
  | none => .fault .noSpsr
  | some w =>
    if legalMode (psrM w) then .next ((s.setCpsr w).branchTo (if psrT w then alignHalf v else alignWord v))
    else .fault .illegalMode

/-! The frame of every instruction. -/

/-- Every rule's wrapper (R120, R122): a failed condition only advances; an UNPREDICTABLE operand combination is refused
(log 15); otherwise the instruction's own effect. -/
def guarded (i : Instr) (s : State) (effect : Result) : Result :=
  if condPassed i.cond s.cpsr then
    match i.restriction with
    | none => effect
    | some r => .refused (.unpredictable r)
  else advance s

end Sys2Proof.Machine
end

