-- ==== Sys2Proof/Machine/Operands.lean ====
section
/-! DEFINITION. Operands: the shifter (R143 to R146), the addresses of single transfers (R181, R182) and of block transfers
(R211). -/

namespace Sys2Proof.Machine

/-- Shift by an immediate (R145): the amount 0 means no shift, 32, 32 and RRX. -/
def shiftByImm (t : ShiftType) (a : Nat) (rm : Word) (c : Bool) : Shifted :=
  match t with
  | .lsl => if a = 0 then ⟨rm, c⟩ else ⟨rm <<< a, bitAt rm (32 - a)⟩
  | .lsr => if a = 0 then ⟨0#32, bitAt rm 31⟩ else ⟨rm >>> a, bitAt rm (a - 1)⟩
  | .asr => if a = 0 then ⟨if bitAt rm 31 then 0xFFFFFFFF#32 else 0#32, bitAt rm 31⟩
      else ⟨rm.sshiftRight a, bitAt rm (a - 1)⟩
  | .ror => if a = 0 then ⟨BitVec.ofBool c ++ field rm 1 31, bitAt rm 0⟩ else ⟨rm.rotateRight a, bitAt rm (a - 1)⟩

/-- Shift by a register (R146): the amount 0 to 255 is the low byte of Rs. -/
def shiftByReg (t : ShiftType) (a : Nat) (rm : Word) (c : Bool) : Shifted :=
  if a = 0 then ⟨rm, c⟩
  else match t with
  | .lsl => if a < 32 then ⟨rm <<< a, bitAt rm (32 - a)⟩ else if a = 32 then ⟨0#32, bitAt rm 0⟩ else ⟨0#32, false⟩
  | .lsr => if a < 32 then ⟨rm >>> a, bitAt rm (a - 1)⟩ else if a = 32 then ⟨0#32, bitAt rm 31⟩ else ⟨0#32, false⟩
  | .asr => if a < 32 then ⟨rm.sshiftRight a, bitAt rm (a - 1)⟩
      else ⟨if bitAt rm 31 then 0xFFFFFFFF#32 else 0#32, bitAt rm 31⟩
  | .ror => if a % 32 = 0 then ⟨rm, bitAt rm 31⟩ else ⟨rm.rotateRight (a % 32), bitAt rm (a % 32 - 1)⟩

/-- The value of a rotated immediate (R98). -/
def rotatedImm (rot : BitVec 4) (imm8 : BitVec 8) : Word := (imm8.setWidth 32).rotateRight (2 * rot.toNat)

/-- `(op2, sco)` of the three forms (R143 to R146). -/
def operand2 (o : Operand2) (s : State) : Shifted :=
  match o with
  | .imm rot imm8 => ⟨rotatedImm rot imm8, if rot = 0#4 then psrC s.cpsr else bitAt (rotatedImm rot imm8) 31⟩
  | .shImm amount t rm => shiftByImm t amount.toNat (s.reg rm) (psrC s.cpsr)
  | .shReg rs t rm => shiftByReg t (field (s.reg rs) 0 8).toNat (s.reg rm) (psrC s.cpsr)

/-- The offset of a word or byte transfer (R181); the shifter's carry-out is discarded. -/
def lsOffset (o : LsOffset) (s : State) : Word :=
  match o with
  | .imm imm12 => imm12.setWidth 32
  | .reg amount t rm => (shiftByImm t amount.toNat (s.reg rm) (psrC s.cpsr)).value

/-- The offset of a halfword or signed transfer (R182). -/
def hsOffset (o : HsOffset) (s : State) : Word :=
  match o with
  | .imm immH immL => (immH ++ immL).setWidth 32
  | .reg rm => s.reg rm

/-- The address of a transfer, and the value written back to the base if any (R181). -/
structure Addressing where
  addr : Word
  writeback : Option Word
deriving DecidableEq, Repr

/-- The address and write-back of R181: `p` applies the offset before the transfer, `u` adds it, `wb` writes the base back. -/
def addressing (p u wb : Bool) (base offset : Word) : Addressing :=
  let sum := if u then base + offset else base - offset
  ⟨if p then sum else base, if wb then some sum else none⟩

/-- The base register after a transfer (R181). -/
def State.writeBase (s : State) (n : RegNum) (a : Addressing) : State :=
  match a.writeback with
  | none => s
  | some v => s.setReg n v

/-- The registers of a list, lowest first (R211). -/
def regList (list : BitVec 16) : List RegNum :=
  [0#4, 1#4, 2#4, 3#4, 4#4, 5#4, 6#4, 7#4, 8#4, 9#4, 10#4, 11#4, 12#4, 13#4, 14#4, 15#4].filter fun i => list.getLsbD i.toNat

/-- The lowest address of a block transfer of `cnt` registers (R211). -/
def blockStart (p u : Bool) (base : Word) (cnt : Nat) : Word :=
  match p, u with
  | false, true => base
  | true, true => base + 4#32
  | false, false => base - BitVec.ofNat 32 (4 * cnt) + 4#32
  | true, false => base - BitVec.ofNat 32 (4 * cnt)

/-- The value written back to the base of a block transfer (R211). -/
def blockBase (u : Bool) (base : Word) (cnt : Nat) : Word :=
  if u then base + BitVec.ofNat 32 (4 * cnt) else base - BitVec.ofNat 32 (4 * cnt)

/-- The addresses of a block transfer, ascending, bits 1:0 ignored (R211, R64). -/
def blockAddrs (start : Word) (cnt : Nat) : List Word :=
  (List.range cnt).map fun k => alignWord (start + BitVec.ofNat 32 (4 * k))

end Sys2Proof.Machine
end

