-- ==== Sys2Proof/Machine/LoadStore.lean ====
section
/-! DEFINITION. Single data transfers and swaps (43_load_store.md). -/

namespace Sys2Proof.Machine

/-- A load: the value and the state after the access, `none` where the access aborts. -/
abbrev Load := State → Word → Option (Word × State)

/-- A store of a value, `none` where the access aborts. -/
abbrev Store := State → Word → Word → Option State

/-- The word at the aligned address, rotated so that the addressed byte is lowest (R64, R184, log 6). -/
def loadWord (s : State) (a : Word) : Option (Word × State) :=
  (memRead s (alignWord a) .word).map fun r => (r.1.rotateRight (8 * (field a 0 2).toNat), r.2)

/-- A byte, zero-extended (R187). -/
def loadByte (s : State) (a : Word) : Option (Word × State) := memRead s a .byte

/-- A halfword, zero-extended (R189). -/
def loadHalf (s : State) (a : Word) : Option (Word × State) := memRead s a .half

/-- A byte, sign-extended (R192). -/
def loadSignedByte (s : State) (a : Word) : Option (Word × State) :=
  (memRead s a .byte).map fun r => ((r.1.setWidth 8).signExtend 32, r.2)

/-- A halfword, sign-extended (R191). -/
def loadSignedHalf (s : State) (a : Word) : Option (Word × State) :=
  (memRead s a .half).map fun r => ((r.1.setWidth 16).signExtend 32, r.2)

/-- A word at the aligned address, not rotated (R64, R186). -/
def storeWord (s : State) (a v : Word) : Option State := memWrite s (alignWord a) .word v

/-- The low byte (R188). -/
def storeByte (s : State) (a v : Word) : Option State := memWrite s a .byte v

/-- The low halfword (R190). -/
def storeHalf (s : State) (a v : Word) : Option State := memWrite s a .half v

/-- A transfer that aborts (R183, R263): Rd and memory untouched, the base as ABORT_BASE says (log 7), Data Abort taken. -/
def abortTransfer (n : RegNum) (a : Addressing) (s : State) : Result :=
  .next ((if s.platform.abortBaseUpdated then s.writeBase n a else s).takeException .dataAbort)

/-- The rule of a load (R184, R187, R189, R191, R192): the base first, then Rd; R15 as Rd is a jump (R185). -/
def loadOp (ld : Load) (n d : RegNum) (a : Addressing) (s : State) : Result :=
  match ld s a.addr with
  | none => abortTransfer n a s
  | some r => finishReg d r.1 (r.2.writeBase n a)

/-- The rule of a store (R186, R188, R190). -/
def storeOp (st : Store) (n : RegNum) (v : Word) (a : Addressing) (s : State) : Result :=
  match st s a.addr v with
  | none => abortTransfer n a s
  | some t => advance (t.writeBase n a)

/-- A halfword access at an odd address is UNPREDICTABLE (R64, R189 to R191). -/
def evenOnly (a : Addressing) (effect : Result) : Result :=
  if bitAt a.addr 0 then .refused .oddHalfword else effect

/-- The addressing of format LS (R181). -/
def lsAddressing (p u wb : Bool) (n : RegNum) (o : LsOffset) (s : State) : Addressing :=
  addressing p u wb (s.reg n) (lsOffset o s)

/-- The addressing of format HS (R182). -/
def hsAddressing (ix : HsIndex) (u : Bool) (n : RegNum) (o : HsOffset) (s : State) : Addressing :=
  addressing ix.p u ix.writesBack (s.reg n) (hsOffset o s)

/-- The rule of SWP and SWPB (R198): the read, then the write, then Rd; either access may abort, and Rd is then unwritten. -/
def swapOp (ld : Load) (st : Store) (n d m : RegNum) (s : State) : Result :=
  match ld s (s.reg n) with
  | none => .next (s.takeException .dataAbort)
  | some r =>
    match st r.2 (s.reg n) (s.reg m) with
    | none => .next (r.2.takeException .dataAbort)
    | some t => finishReg d r.1 t

/-- LDR, immediate offset, P = 1 (offset or pre-indexed) (R184). -/
def execLdrImm (c : Cond) (u w : Bool) (rn rd : RegNum) (imm12 : BitVec 12) (s : State) : Result :=
  guarded (.ldrImm c u w rn rd imm12) s (loadOp loadWord rn rd (lsAddressing true u w rn (.imm imm12) s) s)

/-- LDR, immediate offset, post-indexed (R184). -/
def execLdrImmPost (c : Cond) (u : Bool) (rn rd : RegNum) (imm12 : BitVec 12) (s : State) : Result :=
  guarded (.ldrImmPost c u rn rd imm12) s (loadOp loadWord rn rd (lsAddressing false u true rn (.imm imm12) s) s)

/-- LDR, register offset, P = 1 (offset or pre-indexed) (R184). -/
def execLdrReg (c : Cond) (u w : Bool) (rn rd : RegNum) (amount : BitVec 5) (t : ShiftType) (rm : RegNum) (s : State) : Result :=
  guarded (.ldrReg c u w rn rd amount t rm) s (loadOp loadWord rn rd (lsAddressing true u w rn (.reg amount t rm) s) s)

/-- LDR, register offset, post-indexed (R184). -/
def execLdrRegPost (c : Cond) (u : Bool) (rn rd : RegNum) (amount : BitVec 5) (t : ShiftType) (rm : RegNum) (s : State) : Result :=
  guarded (.ldrRegPost c u rn rd amount t rm) s (loadOp loadWord rn rd (lsAddressing false u true rn (.reg amount t rm) s) s)

/-- STR, immediate offset, P = 1 (offset or pre-indexed) (R186). -/
def execStrImm (c : Cond) (u w : Bool) (rn rd : RegNum) (imm12 : BitVec 12) (s : State) : Result :=
  guarded (.strImm c u w rn rd imm12) s (storeOp storeWord rn (s.storedReg rd) (lsAddressing true u w rn (.imm imm12) s) s)

/-- STR, immediate offset, post-indexed (R186). -/
def execStrImmPost (c : Cond) (u : Bool) (rn rd : RegNum) (imm12 : BitVec 12) (s : State) : Result :=
  guarded (.strImmPost c u rn rd imm12) s (storeOp storeWord rn (s.storedReg rd) (lsAddressing false u true rn (.imm imm12) s) s)

/-- STR, register offset, P = 1 (offset or pre-indexed) (R186). -/
def execStrReg (c : Cond) (u w : Bool) (rn rd : RegNum) (amount : BitVec 5) (t : ShiftType) (rm : RegNum) (s : State) : Result :=
  guarded (.strReg c u w rn rd amount t rm) s (storeOp storeWord rn (s.storedReg rd) (lsAddressing true u w rn (.reg amount t rm) s) s)

/-- STR, register offset, post-indexed (R186). -/
def execStrRegPost (c : Cond) (u : Bool) (rn rd : RegNum) (amount : BitVec 5) (t : ShiftType) (rm : RegNum) (s : State) : Result :=
  guarded (.strRegPost c u rn rd amount t rm) s (storeOp storeWord rn (s.storedReg rd) (lsAddressing false u true rn (.reg amount t rm) s) s)

/-- LDRB, immediate offset, P = 1 (offset or pre-indexed) (R187). -/
def execLdrbImm (c : Cond) (u w : Bool) (rn rd : RegNum) (imm12 : BitVec 12) (s : State) : Result :=
  guarded (.ldrbImm c u w rn rd imm12) s (loadOp loadByte rn rd (lsAddressing true u w rn (.imm imm12) s) s)

/-- LDRB, immediate offset, post-indexed (R187). -/
def execLdrbImmPost (c : Cond) (u : Bool) (rn rd : RegNum) (imm12 : BitVec 12) (s : State) : Result :=
  guarded (.ldrbImmPost c u rn rd imm12) s (loadOp loadByte rn rd (lsAddressing false u true rn (.imm imm12) s) s)

/-- LDRB, register offset, P = 1 (offset or pre-indexed) (R187). -/
def execLdrbReg (c : Cond) (u w : Bool) (rn rd : RegNum) (amount : BitVec 5) (t : ShiftType) (rm : RegNum) (s : State) : Result :=
  guarded (.ldrbReg c u w rn rd amount t rm) s (loadOp loadByte rn rd (lsAddressing true u w rn (.reg amount t rm) s) s)

/-- LDRB, register offset, post-indexed (R187). -/
def execLdrbRegPost (c : Cond) (u : Bool) (rn rd : RegNum) (amount : BitVec 5) (t : ShiftType) (rm : RegNum) (s : State) : Result :=
  guarded (.ldrbRegPost c u rn rd amount t rm) s (loadOp loadByte rn rd (lsAddressing false u true rn (.reg amount t rm) s) s)

/-- STRB, immediate offset, P = 1 (offset or pre-indexed) (R188). -/
def execStrbImm (c : Cond) (u w : Bool) (rn rd : RegNum) (imm12 : BitVec 12) (s : State) : Result :=
  guarded (.strbImm c u w rn rd imm12) s (storeOp storeByte rn (s.reg rd) (lsAddressing true u w rn (.imm imm12) s) s)

/-- STRB, immediate offset, post-indexed (R188). -/
def execStrbImmPost (c : Cond) (u : Bool) (rn rd : RegNum) (imm12 : BitVec 12) (s : State) : Result :=
  guarded (.strbImmPost c u rn rd imm12) s (storeOp storeByte rn (s.reg rd) (lsAddressing false u true rn (.imm imm12) s) s)

/-- STRB, register offset, P = 1 (offset or pre-indexed) (R188). -/
def execStrbReg (c : Cond) (u w : Bool) (rn rd : RegNum) (amount : BitVec 5) (t : ShiftType) (rm : RegNum) (s : State) : Result :=
  guarded (.strbReg c u w rn rd amount t rm) s (storeOp storeByte rn (s.reg rd) (lsAddressing true u w rn (.reg amount t rm) s) s)

/-- STRB, register offset, post-indexed (R188). -/
def execStrbRegPost (c : Cond) (u : Bool) (rn rd : RegNum) (amount : BitVec 5) (t : ShiftType) (rm : RegNum) (s : State) : Result :=
  guarded (.strbRegPost c u rn rd amount t rm) s (storeOp storeByte rn (s.reg rd) (lsAddressing false u true rn (.reg amount t rm) s) s)

/-- LDRT, immediate offset (R193). -/
def execLdrtImm (c : Cond) (u : Bool) (rn rd : RegNum) (imm12 : BitVec 12) (s : State) : Result :=
  guarded (.ldrtImm c u rn rd imm12) s (loadOp loadWord rn rd (lsAddressing false u true rn (.imm imm12) s) s)

/-- LDRT, register offset (R193). -/
def execLdrtReg (c : Cond) (u : Bool) (rn rd : RegNum) (amount : BitVec 5) (t : ShiftType) (rm : RegNum) (s : State) : Result :=
  guarded (.ldrtReg c u rn rd amount t rm) s (loadOp loadWord rn rd (lsAddressing false u true rn (.reg amount t rm) s) s)

/-- STRT, immediate offset (R193). -/
def execStrtImm (c : Cond) (u : Bool) (rn rd : RegNum) (imm12 : BitVec 12) (s : State) : Result :=
  guarded (.strtImm c u rn rd imm12) s (storeOp storeWord rn (s.storedReg rd) (lsAddressing false u true rn (.imm imm12) s) s)

/-- STRT, register offset (R193). -/
def execStrtReg (c : Cond) (u : Bool) (rn rd : RegNum) (amount : BitVec 5) (t : ShiftType) (rm : RegNum) (s : State) : Result :=
  guarded (.strtReg c u rn rd amount t rm) s (storeOp storeWord rn (s.storedReg rd) (lsAddressing false u true rn (.reg amount t rm) s) s)

/-- LDRBT, immediate offset (R193). -/
def execLdrbtImm (c : Cond) (u : Bool) (rn rd : RegNum) (imm12 : BitVec 12) (s : State) : Result :=
  guarded (.ldrbtImm c u rn rd imm12) s (loadOp loadByte rn rd (lsAddressing false u true rn (.imm imm12) s) s)

/-- LDRBT, register offset (R193). -/
def execLdrbtReg (c : Cond) (u : Bool) (rn rd : RegNum) (amount : BitVec 5) (t : ShiftType) (rm : RegNum) (s : State) : Result :=
  guarded (.ldrbtReg c u rn rd amount t rm) s (loadOp loadByte rn rd (lsAddressing false u true rn (.reg amount t rm) s) s)

/-- STRBT, immediate offset (R193). -/
def execStrbtImm (c : Cond) (u : Bool) (rn rd : RegNum) (imm12 : BitVec 12) (s : State) : Result :=
  guarded (.strbtImm c u rn rd imm12) s (storeOp storeByte rn (s.reg rd) (lsAddressing false u true rn (.imm imm12) s) s)

/-- STRBT, register offset (R193). -/
def execStrbtReg (c : Cond) (u : Bool) (rn rd : RegNum) (amount : BitVec 5) (t : ShiftType) (rm : RegNum) (s : State) : Result :=
  guarded (.strbtReg c u rn rd amount t rm) s (storeOp storeByte rn (s.reg rd) (lsAddressing false u true rn (.reg amount t rm) s) s)

/-- LDRH, immediate offset (R189). -/
def execLdrhImm (c : Cond) (ix : HsIndex) (u : Bool) (rn rd : RegNum) (immH immL : BitVec 4) (s : State) : Result :=
  guarded (.ldrhImm c ix u rn rd immH immL) s (evenOnly (hsAddressing ix u rn (.imm immH immL) s) (loadOp loadHalf rn rd (hsAddressing ix u rn (.imm immH immL) s) s))

/-- LDRH, register offset (R189). -/
def execLdrhReg (c : Cond) (ix : HsIndex) (u : Bool) (rn rd rm : RegNum) (s : State) : Result :=
  guarded (.ldrhReg c ix u rn rd rm) s (evenOnly (hsAddressing ix u rn (.reg rm) s) (loadOp loadHalf rn rd (hsAddressing ix u rn (.reg rm) s) s))

/-- STRH, immediate offset (R190). -/
def execStrhImm (c : Cond) (ix : HsIndex) (u : Bool) (rn rd : RegNum) (immH immL : BitVec 4) (s : State) : Result :=
  guarded (.strhImm c ix u rn rd immH immL) s (evenOnly (hsAddressing ix u rn (.imm immH immL) s) (storeOp storeHalf rn (s.reg rd) (hsAddressing ix u rn (.imm immH immL) s) s))

/-- STRH, register offset (R190). -/
def execStrhReg (c : Cond) (ix : HsIndex) (u : Bool) (rn rd rm : RegNum) (s : State) : Result :=
  guarded (.strhReg c ix u rn rd rm) s (evenOnly (hsAddressing ix u rn (.reg rm) s) (storeOp storeHalf rn (s.reg rd) (hsAddressing ix u rn (.reg rm) s) s))

/-- LDRSB, immediate offset (R192). -/
def execLdrsbImm (c : Cond) (ix : HsIndex) (u : Bool) (rn rd : RegNum) (immH immL : BitVec 4) (s : State) : Result :=
  guarded (.ldrsbImm c ix u rn rd immH immL) s (loadOp loadSignedByte rn rd (hsAddressing ix u rn (.imm immH immL) s) s)

/-- LDRSB, register offset (R192). -/
def execLdrsbReg (c : Cond) (ix : HsIndex) (u : Bool) (rn rd rm : RegNum) (s : State) : Result :=
  guarded (.ldrsbReg c ix u rn rd rm) s (loadOp loadSignedByte rn rd (hsAddressing ix u rn (.reg rm) s) s)

/-- LDRSH, immediate offset (R191). -/
def execLdrshImm (c : Cond) (ix : HsIndex) (u : Bool) (rn rd : RegNum) (immH immL : BitVec 4) (s : State) : Result :=
  guarded (.ldrshImm c ix u rn rd immH immL) s (evenOnly (hsAddressing ix u rn (.imm immH immL) s) (loadOp loadSignedHalf rn rd (hsAddressing ix u rn (.imm immH immL) s) s))

/-- LDRSH, register offset (R191). -/
def execLdrshReg (c : Cond) (ix : HsIndex) (u : Bool) (rn rd rm : RegNum) (s : State) : Result :=
  guarded (.ldrshReg c ix u rn rd rm) s (evenOnly (hsAddressing ix u rn (.reg rm) s) (loadOp loadSignedHalf rn rd (hsAddressing ix u rn (.reg rm) s) s))

/-- SWP (R198). -/
def execSwp (c : Cond) (rn rd rm : RegNum) (s : State) : Result :=
  guarded (.swp c rn rd rm) s (swapOp loadWord storeWord rn rd rm s)

/-- SWPB (R198). -/
def execSwpb (c : Cond) (rn rd rm : RegNum) (s : State) : Result :=
  guarded (.swpb c rn rd rm) s (swapOp loadByte storeByte rn rd rm s)

end Sys2Proof.Machine
end

