-- ==== Sys2Proof/Machine/Block.lean ====
section
/-! DEFINITION. Block data transfers (44_block_transfer.md). -/

namespace Sys2Proof.Machine

/-- Read words at ascending addresses; `none` where one aborts, with the state after the accesses made (R211, R217(e)). -/
def readBlock : List Word → State → Option (List Word) × State
  | [], s => (some [], s)
  | a :: rest, s =>
    match memRead s a .word with
    | none => (none, s)
    | some r => ((readBlock rest r.2).1.map (r.1 :: ·), (readBlock rest r.2).2)

/-- Write words at ascending addresses; `false` where one aborts, the earlier words being in memory (R211, R217(e)). -/
def writeBlock : List (Word × Word) → State → Bool × State
  | [], s => (true, s)
  | (a, v) :: rest, s =>
    match memWrite s a .word v with
    | none => (false, s)
    | some t => writeBlock rest t

/-- Load registers of a mode's bank; R15 is not written here (R213, R214, R215). -/
def loadRegs (m : Mode) : List (RegNum × Word) → State → State
  | [], s => s
  | (i, v) :: rest, s => loadRegs m rest (if i = pcNum then s else s.setPReg (bank m i) v)

/-- The registers of an aborted LDM hold free values, but for the base and R15 (R217(e), D21, log 27). -/
def scrambleRegs (m : Mode) (base : PReg) : List RegNum → State → State
  | [], s => s
  | i :: rest, s => scrambleRegs m base rest
      (if i = pcNum ∨ bank m i = base then s else (s.setPReg (bank m i) (Config.freeWord s.draws)).draw 1)

/-- The addressing of a block transfer (R211): its lowest address, and the base written back if W = 1. -/
def blockAddressing (p u w : Bool) (n : RegNum) (list : BitVec 16) (s : State) : Addressing :=
  ⟨blockStart p u (s.reg n) (regList list).length,
    if w then some (blockBase u (s.reg n) (regList list).length) else none⟩

/-- The addresses the transfer touches, one for each register of the list (R211). -/
def blockTargets (p u w : Bool) (n : RegNum) (list : BitVec 16) (s : State) : List Word :=
  blockAddrs (blockAddressing p u w n list s).addr (regList list).length

/-- The end of an LDM whose words have been read (R213, R214, R215): the registers, the base, then R15 if listed. With ^, R15
listed makes it an exception return, and R15 not listed leaves the User-bank hazard of R310(c). -/
def finishLdm (sf : Bool) (n : RegNum) (list : BitVec 16) (m : Mode) (a : Addressing) (vals : List Word) (s : State) : Result :=
  let t := (loadRegs m ((regList list).zip vals) s).writeBase n a
  if list.getLsbD 15 then
    if sf then exceptionReturn (vals.getLastD 0#32) t else .next (t.branchTo (alignWord (vals.getLastD 0#32)))
  else advance (if sf then t.setHazard true else t)

/-- The rule of LDM (R211, R213 to R215, R217). With ^ and R15 not listed the User bank is loaded; with ^ in a mode that has no
SPSR the instruction is UNPREDICTABLE, a fault where it would restore CPSR (U3). An LDM of the User bank that aborts leaves no hazard
of R310(c): the spec is silent on it (DESIGN CHOICE, log 20). -/
def ldmOp (p u sf w : Bool) (n : RegNum) (list : BitVec 16) (s : State) : Result :=
  let m := if sf && !list.getLsbD 15 then .usr else s.mode
  let a := blockAddressing p u w n list s
  if sf && s.currentSpsr.isNone then
    if list.getLsbD 15 then .fault .noSpsr else .refused .userBankUnprivileged
  else match readBlock (blockTargets p u w n list s) s with
    | (none, t) => abortTransfer n a (scrambleRegs m (bank s.mode n) (regList list) t)
    | (some vals, t) => finishLdm sf n list m a vals t

/-- The words an STM stores, with their addresses (R211, R215(c), R216). -/
def storedWords (p u sf w : Bool) (n : RegNum) (list : BitVec 16) (s : State) : List (Word × Word) :=
  (blockTargets p u w n list s).zip ((regList list).map fun i => if sf then s.storedUserReg i else s.storedReg i)

/-- The rule of STM (R211, R215(c), R216, R217). -/
def stmOp (p u sf w : Bool) (n : RegNum) (list : BitVec 16) (s : State) : Result :=
  if sf && s.currentSpsr.isNone then .refused .userBankUnprivileged
  else match writeBlock (storedWords p u sf w n list s) s with
    | (false, t) => abortTransfer n (blockAddressing p u w n list s) t
    | (true, t) => advance (t.writeBase n (blockAddressing p u w n list s))

/-- LDM (R213 to R215, R217). -/
def execLdm (c : Cond) (p u sf w : Bool) (rn : RegNum) (list : BitVec 16) (s : State) : Result :=
  guarded (.ldm c p u sf w rn list) s (ldmOp p u sf w rn list s)

/-- STM (R215 to R217). -/
def execStm (c : Cond) (p u sf w : Bool) (rn : RegNum) (list : BitVec 16) (s : State) : Result :=
  guarded (.stm c p u sf w rn list) s (stmOp p u sf w rn list s)

end Sys2Proof.Machine
end

