-- ==== Sys2Proof/Machine/Branch.lean ====
section
/-! DEFINITION. The branches (41_branch.md). -/

namespace Sys2Proof.Machine

/-- The target of B and BL (R98, R131), modulo 2^32. -/
def branchTarget (s : State) (imm24 : BitVec 24) : Word := s.pc + 8#32 + (imm24 ++ 0b00#2).signExtend 32

/-- The target of B and BL, computed without wrapping, lies past 0xFFFFFFFC (R29, U14; DEDUCED, log 18). -/
def branchPastTop (s : State) (imm24 : BitVec 24) : Bool := decide ((2 : Int) ^ 32 ≤ s.pc.toNat + 8 + 4 * imm24.toInt)

/-- The jump of B and BL (R131): refused past the top of the address space (U14, D19); below 0 the target wraps (R29, log 18). -/
def branchOp (imm24 : BitVec 24) (s : State) : Result :=
  if branchPastTop s imm24 then .refused .pcWrap else .next (s.branchTo (branchTarget s imm24))

/-- The rule of BX (R134): T from bit 0 of the register, PC from the rest; bits 1:0 = 10 are UNPREDICTABLE. -/
def bxOp (v : Word) (s : State) : Result :=
  if field v 0 2 = 0b10#2 then .refused .bxTarget
  else .next ((s.setCpsr (psrSetT s.cpsr (bitAt v 0))).branchTo (alignHalf v))

/-- BX (R134). -/
def execBx (c : Cond) (rm : RegNum) (s : State) : Result :=
  guarded (.bx c rm) s (bxOp (s.reg rm) s)

/-- B (R131). -/
def execB (c : Cond) (imm24 : BitVec 24) (s : State) : Result :=
  guarded (.b c imm24) s (branchOp imm24 s)

/-- BL (R132): the return address into R14 of the current mode. -/
def execBl (c : Cond) (imm24 : BitVec 24) (s : State) : Result :=
  guarded (.bl c imm24) s (branchOp imm24 (s.setReg 14#4 (s.pc + 4#32)))

end Sys2Proof.Machine
end

