-- ==== Sys2Proof/Machine/DataProcessing.lean ====
section
/-! DEFINITION. The data-processing instructions (42_data_processing.md): one shared operation for the twelve that write a
register, one for the four that only test, and one meaning for each row of the table. -/

namespace Sys2Proof.Machine

/-- An arithmetic or logical unit: Rn's value, the second operand, C and V before. -/
abbrev Alu := Word → Shifted → Bool → Bool → AluResult

/-- The unit applied to a first operand and the instruction's second operand. -/
def State.alu (s : State) (f : Alu) (a : Word) (o : Operand2) : AluResult :=
  f a (operand2 o s) (psrC s.cpsr) (psrV s.cpsr)

/-- N, Z, C, V from a result (R147). -/
def State.setAluFlags (s : State) (r : AluResult) : State := s.setCpsr (psrSetFlags s.cpsr r.n r.z r.c r.v)

/-- `WriteResult` (R148, R149): Rd and, with S, the flags; into R15 a jump, which with S is an exception return. -/
def writeResult (d : RegNum) (sf : Bool) (r : AluResult) (s : State) : Result :=
  if d = pcNum then
    if sf then exceptionReturn r.value s else .next (s.setReg d r.value)
  else advance ((if sf then s.setAluFlags r else s).setReg d r.value)

/-- The twelve instructions with a destination (R151 to R158, R163 to R166). -/
def dataOp (f : Alu) (d : RegNum) (sf : Bool) (a : Word) (o : Operand2) (s : State) : Result :=
  writeResult d sf (s.alu f a o) s

/-- TST, TEQ, CMP, CMN (R159 to R162): the flags, no register. -/
def testOp (f : Alu) (a : Word) (o : Operand2) (s : State) : Result := advance (s.setAluFlags (s.alu f a o))

/-- AND, immediate second operand (R151). -/
def execAndImm (c : Cond) (sf : Bool) (rn rd : RegNum) (rot : BitVec 4) (imm8 : BitVec 8) (s : State) : Result :=
  guarded (.andImm c sf rn rd rot imm8) s (dataOp aluAnd rd sf (s.reg rn) (.imm rot imm8) s)

/-- AND, register shifted by an immediate (R151). -/
def execAndShImm (c : Cond) (sf : Bool) (rn rd : RegNum) (amount : BitVec 5) (t : ShiftType) (rm : RegNum) (s : State) : Result :=
  guarded (.andShImm c sf rn rd amount t rm) s (dataOp aluAnd rd sf (s.reg rn) (.shImm amount t rm) s)

/-- AND, register shifted by a register (R151). -/
def execAndShReg (c : Cond) (sf : Bool) (rn rd rs : RegNum) (t : ShiftType) (rm : RegNum) (s : State) : Result :=
  guarded (.andShReg c sf rn rd rs t rm) s (dataOp aluAnd rd sf (s.reg rn) (.shReg rs t rm) s)

/-- EOR, immediate second operand (R152). -/
def execEorImm (c : Cond) (sf : Bool) (rn rd : RegNum) (rot : BitVec 4) (imm8 : BitVec 8) (s : State) : Result :=
  guarded (.eorImm c sf rn rd rot imm8) s (dataOp aluEor rd sf (s.reg rn) (.imm rot imm8) s)

/-- EOR, register shifted by an immediate (R152). -/
def execEorShImm (c : Cond) (sf : Bool) (rn rd : RegNum) (amount : BitVec 5) (t : ShiftType) (rm : RegNum) (s : State) : Result :=
  guarded (.eorShImm c sf rn rd amount t rm) s (dataOp aluEor rd sf (s.reg rn) (.shImm amount t rm) s)

/-- EOR, register shifted by a register (R152). -/
def execEorShReg (c : Cond) (sf : Bool) (rn rd rs : RegNum) (t : ShiftType) (rm : RegNum) (s : State) : Result :=
  guarded (.eorShReg c sf rn rd rs t rm) s (dataOp aluEor rd sf (s.reg rn) (.shReg rs t rm) s)

/-- SUB, immediate second operand (R153). -/
def execSubImm (c : Cond) (sf : Bool) (rn rd : RegNum) (rot : BitVec 4) (imm8 : BitVec 8) (s : State) : Result :=
  guarded (.subImm c sf rn rd rot imm8) s (dataOp aluSub rd sf (s.reg rn) (.imm rot imm8) s)

/-- SUB, register shifted by an immediate (R153). -/
def execSubShImm (c : Cond) (sf : Bool) (rn rd : RegNum) (amount : BitVec 5) (t : ShiftType) (rm : RegNum) (s : State) : Result :=
  guarded (.subShImm c sf rn rd amount t rm) s (dataOp aluSub rd sf (s.reg rn) (.shImm amount t rm) s)

/-- SUB, register shifted by a register (R153). -/
def execSubShReg (c : Cond) (sf : Bool) (rn rd rs : RegNum) (t : ShiftType) (rm : RegNum) (s : State) : Result :=
  guarded (.subShReg c sf rn rd rs t rm) s (dataOp aluSub rd sf (s.reg rn) (.shReg rs t rm) s)

/-- RSB, immediate second operand (R154). -/
def execRsbImm (c : Cond) (sf : Bool) (rn rd : RegNum) (rot : BitVec 4) (imm8 : BitVec 8) (s : State) : Result :=
  guarded (.rsbImm c sf rn rd rot imm8) s (dataOp aluRsb rd sf (s.reg rn) (.imm rot imm8) s)

/-- RSB, register shifted by an immediate (R154). -/
def execRsbShImm (c : Cond) (sf : Bool) (rn rd : RegNum) (amount : BitVec 5) (t : ShiftType) (rm : RegNum) (s : State) : Result :=
  guarded (.rsbShImm c sf rn rd amount t rm) s (dataOp aluRsb rd sf (s.reg rn) (.shImm amount t rm) s)

/-- RSB, register shifted by a register (R154). -/
def execRsbShReg (c : Cond) (sf : Bool) (rn rd rs : RegNum) (t : ShiftType) (rm : RegNum) (s : State) : Result :=
  guarded (.rsbShReg c sf rn rd rs t rm) s (dataOp aluRsb rd sf (s.reg rn) (.shReg rs t rm) s)

/-- ADD, immediate second operand (R155). -/
def execAddImm (c : Cond) (sf : Bool) (rn rd : RegNum) (rot : BitVec 4) (imm8 : BitVec 8) (s : State) : Result :=
  guarded (.addImm c sf rn rd rot imm8) s (dataOp aluAdd rd sf (s.reg rn) (.imm rot imm8) s)

/-- ADD, register shifted by an immediate (R155). -/
def execAddShImm (c : Cond) (sf : Bool) (rn rd : RegNum) (amount : BitVec 5) (t : ShiftType) (rm : RegNum) (s : State) : Result :=
  guarded (.addShImm c sf rn rd amount t rm) s (dataOp aluAdd rd sf (s.reg rn) (.shImm amount t rm) s)

/-- ADD, register shifted by a register (R155). -/
def execAddShReg (c : Cond) (sf : Bool) (rn rd rs : RegNum) (t : ShiftType) (rm : RegNum) (s : State) : Result :=
  guarded (.addShReg c sf rn rd rs t rm) s (dataOp aluAdd rd sf (s.reg rn) (.shReg rs t rm) s)

/-- ADC, immediate second operand (R156). -/
def execAdcImm (c : Cond) (sf : Bool) (rn rd : RegNum) (rot : BitVec 4) (imm8 : BitVec 8) (s : State) : Result :=
  guarded (.adcImm c sf rn rd rot imm8) s (dataOp aluAdc rd sf (s.reg rn) (.imm rot imm8) s)

/-- ADC, register shifted by an immediate (R156). -/
def execAdcShImm (c : Cond) (sf : Bool) (rn rd : RegNum) (amount : BitVec 5) (t : ShiftType) (rm : RegNum) (s : State) : Result :=
  guarded (.adcShImm c sf rn rd amount t rm) s (dataOp aluAdc rd sf (s.reg rn) (.shImm amount t rm) s)

/-- ADC, register shifted by a register (R156). -/
def execAdcShReg (c : Cond) (sf : Bool) (rn rd rs : RegNum) (t : ShiftType) (rm : RegNum) (s : State) : Result :=
  guarded (.adcShReg c sf rn rd rs t rm) s (dataOp aluAdc rd sf (s.reg rn) (.shReg rs t rm) s)

/-- SBC, immediate second operand (R157). -/
def execSbcImm (c : Cond) (sf : Bool) (rn rd : RegNum) (rot : BitVec 4) (imm8 : BitVec 8) (s : State) : Result :=
  guarded (.sbcImm c sf rn rd rot imm8) s (dataOp aluSbc rd sf (s.reg rn) (.imm rot imm8) s)

/-- SBC, register shifted by an immediate (R157). -/
def execSbcShImm (c : Cond) (sf : Bool) (rn rd : RegNum) (amount : BitVec 5) (t : ShiftType) (rm : RegNum) (s : State) : Result :=
  guarded (.sbcShImm c sf rn rd amount t rm) s (dataOp aluSbc rd sf (s.reg rn) (.shImm amount t rm) s)

/-- SBC, register shifted by a register (R157). -/
def execSbcShReg (c : Cond) (sf : Bool) (rn rd rs : RegNum) (t : ShiftType) (rm : RegNum) (s : State) : Result :=
  guarded (.sbcShReg c sf rn rd rs t rm) s (dataOp aluSbc rd sf (s.reg rn) (.shReg rs t rm) s)

/-- RSC, immediate second operand (R158). -/
def execRscImm (c : Cond) (sf : Bool) (rn rd : RegNum) (rot : BitVec 4) (imm8 : BitVec 8) (s : State) : Result :=
  guarded (.rscImm c sf rn rd rot imm8) s (dataOp aluRsc rd sf (s.reg rn) (.imm rot imm8) s)

/-- RSC, register shifted by an immediate (R158). -/
def execRscShImm (c : Cond) (sf : Bool) (rn rd : RegNum) (amount : BitVec 5) (t : ShiftType) (rm : RegNum) (s : State) : Result :=
  guarded (.rscShImm c sf rn rd amount t rm) s (dataOp aluRsc rd sf (s.reg rn) (.shImm amount t rm) s)

/-- RSC, register shifted by a register (R158). -/
def execRscShReg (c : Cond) (sf : Bool) (rn rd rs : RegNum) (t : ShiftType) (rm : RegNum) (s : State) : Result :=
  guarded (.rscShReg c sf rn rd rs t rm) s (dataOp aluRsc rd sf (s.reg rn) (.shReg rs t rm) s)

/-- TST, immediate second operand (R159). -/
def execTstImm (c : Cond) (rn : RegNum) (rot : BitVec 4) (imm8 : BitVec 8) (s : State) : Result :=
  guarded (.tstImm c rn rot imm8) s (testOp aluAnd (s.reg rn) (.imm rot imm8) s)

/-- TST, register shifted by an immediate (R159). -/
def execTstShImm (c : Cond) (rn : RegNum) (amount : BitVec 5) (t : ShiftType) (rm : RegNum) (s : State) : Result :=
  guarded (.tstShImm c rn amount t rm) s (testOp aluAnd (s.reg rn) (.shImm amount t rm) s)

/-- TST, register shifted by a register (R159). -/
def execTstShReg (c : Cond) (rn rs : RegNum) (t : ShiftType) (rm : RegNum) (s : State) : Result :=
  guarded (.tstShReg c rn rs t rm) s (testOp aluAnd (s.reg rn) (.shReg rs t rm) s)

/-- TEQ, immediate second operand (R160). -/
def execTeqImm (c : Cond) (rn : RegNum) (rot : BitVec 4) (imm8 : BitVec 8) (s : State) : Result :=
  guarded (.teqImm c rn rot imm8) s (testOp aluEor (s.reg rn) (.imm rot imm8) s)

/-- TEQ, register shifted by an immediate (R160). -/
def execTeqShImm (c : Cond) (rn : RegNum) (amount : BitVec 5) (t : ShiftType) (rm : RegNum) (s : State) : Result :=
  guarded (.teqShImm c rn amount t rm) s (testOp aluEor (s.reg rn) (.shImm amount t rm) s)

/-- TEQ, register shifted by a register (R160). -/
def execTeqShReg (c : Cond) (rn rs : RegNum) (t : ShiftType) (rm : RegNum) (s : State) : Result :=
  guarded (.teqShReg c rn rs t rm) s (testOp aluEor (s.reg rn) (.shReg rs t rm) s)

/-- CMP, immediate second operand (R161). -/
def execCmpImm (c : Cond) (rn : RegNum) (rot : BitVec 4) (imm8 : BitVec 8) (s : State) : Result :=
  guarded (.cmpImm c rn rot imm8) s (testOp aluSub (s.reg rn) (.imm rot imm8) s)

/-- CMP, register shifted by an immediate (R161). -/
def execCmpShImm (c : Cond) (rn : RegNum) (amount : BitVec 5) (t : ShiftType) (rm : RegNum) (s : State) : Result :=
  guarded (.cmpShImm c rn amount t rm) s (testOp aluSub (s.reg rn) (.shImm amount t rm) s)

/-- CMP, register shifted by a register (R161). -/
def execCmpShReg (c : Cond) (rn rs : RegNum) (t : ShiftType) (rm : RegNum) (s : State) : Result :=
  guarded (.cmpShReg c rn rs t rm) s (testOp aluSub (s.reg rn) (.shReg rs t rm) s)

/-- CMN, immediate second operand (R162). -/
def execCmnImm (c : Cond) (rn : RegNum) (rot : BitVec 4) (imm8 : BitVec 8) (s : State) : Result :=
  guarded (.cmnImm c rn rot imm8) s (testOp aluAdd (s.reg rn) (.imm rot imm8) s)

/-- CMN, register shifted by an immediate (R162). -/
def execCmnShImm (c : Cond) (rn : RegNum) (amount : BitVec 5) (t : ShiftType) (rm : RegNum) (s : State) : Result :=
  guarded (.cmnShImm c rn amount t rm) s (testOp aluAdd (s.reg rn) (.shImm amount t rm) s)

/-- CMN, register shifted by a register (R162). -/
def execCmnShReg (c : Cond) (rn rs : RegNum) (t : ShiftType) (rm : RegNum) (s : State) : Result :=
  guarded (.cmnShReg c rn rs t rm) s (testOp aluAdd (s.reg rn) (.shReg rs t rm) s)

/-- ORR, immediate second operand (R163). -/
def execOrrImm (c : Cond) (sf : Bool) (rn rd : RegNum) (rot : BitVec 4) (imm8 : BitVec 8) (s : State) : Result :=
  guarded (.orrImm c sf rn rd rot imm8) s (dataOp aluOrr rd sf (s.reg rn) (.imm rot imm8) s)

/-- ORR, register shifted by an immediate (R163). -/
def execOrrShImm (c : Cond) (sf : Bool) (rn rd : RegNum) (amount : BitVec 5) (t : ShiftType) (rm : RegNum) (s : State) : Result :=
  guarded (.orrShImm c sf rn rd amount t rm) s (dataOp aluOrr rd sf (s.reg rn) (.shImm amount t rm) s)

/-- ORR, register shifted by a register (R163). -/
def execOrrShReg (c : Cond) (sf : Bool) (rn rd rs : RegNum) (t : ShiftType) (rm : RegNum) (s : State) : Result :=
  guarded (.orrShReg c sf rn rd rs t rm) s (dataOp aluOrr rd sf (s.reg rn) (.shReg rs t rm) s)

/-- MOV, immediate second operand (R164). -/
def execMovImm (c : Cond) (sf : Bool) (rd : RegNum) (rot : BitVec 4) (imm8 : BitVec 8) (s : State) : Result :=
  guarded (.movImm c sf rd rot imm8) s (dataOp aluMov rd sf 0#32 (.imm rot imm8) s)

/-- MOV, register shifted by an immediate (R164). -/
def execMovShImm (c : Cond) (sf : Bool) (rd : RegNum) (amount : BitVec 5) (t : ShiftType) (rm : RegNum) (s : State) : Result :=
  guarded (.movShImm c sf rd amount t rm) s (dataOp aluMov rd sf 0#32 (.shImm amount t rm) s)

/-- MOV, register shifted by a register (R164). -/
def execMovShReg (c : Cond) (sf : Bool) (rd rs : RegNum) (t : ShiftType) (rm : RegNum) (s : State) : Result :=
  guarded (.movShReg c sf rd rs t rm) s (dataOp aluMov rd sf 0#32 (.shReg rs t rm) s)

/-- BIC, immediate second operand (R165). -/
def execBicImm (c : Cond) (sf : Bool) (rn rd : RegNum) (rot : BitVec 4) (imm8 : BitVec 8) (s : State) : Result :=
  guarded (.bicImm c sf rn rd rot imm8) s (dataOp aluBic rd sf (s.reg rn) (.imm rot imm8) s)

/-- BIC, register shifted by an immediate (R165). -/
def execBicShImm (c : Cond) (sf : Bool) (rn rd : RegNum) (amount : BitVec 5) (t : ShiftType) (rm : RegNum) (s : State) : Result :=
  guarded (.bicShImm c sf rn rd amount t rm) s (dataOp aluBic rd sf (s.reg rn) (.shImm amount t rm) s)

/-- BIC, register shifted by a register (R165). -/
def execBicShReg (c : Cond) (sf : Bool) (rn rd rs : RegNum) (t : ShiftType) (rm : RegNum) (s : State) : Result :=
  guarded (.bicShReg c sf rn rd rs t rm) s (dataOp aluBic rd sf (s.reg rn) (.shReg rs t rm) s)

/-- MVN, immediate second operand (R166). -/
def execMvnImm (c : Cond) (sf : Bool) (rd : RegNum) (rot : BitVec 4) (imm8 : BitVec 8) (s : State) : Result :=
  guarded (.mvnImm c sf rd rot imm8) s (dataOp aluMvn rd sf 0#32 (.imm rot imm8) s)

/-- MVN, register shifted by an immediate (R166). -/
def execMvnShImm (c : Cond) (sf : Bool) (rd : RegNum) (amount : BitVec 5) (t : ShiftType) (rm : RegNum) (s : State) : Result :=
  guarded (.mvnShImm c sf rd amount t rm) s (dataOp aluMvn rd sf 0#32 (.shImm amount t rm) s)

/-- MVN, register shifted by a register (R166). -/
def execMvnShReg (c : Cond) (sf : Bool) (rd rs : RegNum) (t : ShiftType) (rm : RegNum) (s : State) : Result :=
  guarded (.mvnShReg c sf rd rs t rm) s (dataOp aluMvn rd sf 0#32 (.shReg rs t rm) s)

end Sys2Proof.Machine
end

