-- ==== Sys2Proof/Machine/Multiply.lean ====
section
/-! DEFINITION. The multiply instructions (47_multiply.md). -/

namespace Sys2Proof.Machine

/-- The flags of MUL and MLA with S (R247): N and Z from the result, C a free value (log 12), V kept. -/
def State.setMulFlags (s : State) (r : Word) : State :=
  (s.setCpsr (psrSetFlags s.cpsr (bitAt r 31) (r == 0#32) (bitAt (Config.freeWord s.draws) 0) (psrV s.cpsr))).draw 1

/-- The flags of a long multiply with S (R247): N and Z from all 64 bits, C and V free values (log 12). -/
def State.setMullFlags (s : State) (p : BitVec 64) : State :=
  (s.setCpsr (psrSetFlags s.cpsr (p.getLsbD 63) (p == 0#64) (bitAt (Config.freeWord s.draws) 0)
    (bitAt (Config.freeWord s.draws) 1))).draw 1

/-- The common tail of MUL and MLA (R241, R242). -/
def mulOp (sf : Bool) (rd : RegNum) (r : Word) (s : State) : Result :=
  finishReg rd r (if sf then s.setMulFlags r else s)

/-- The common tail of the long multiplies (R243 to R246): the high word into RdHi, the low word into RdLo. -/
def mullOp (sf : Bool) (rdHi rdLo : RegNum) (p : BitVec 64) (s : State) : Result :=
  finishReg rdLo (p.extractLsb' 0 32) ((if sf then s.setMullFlags p else s).setReg rdHi (p.extractLsb' 32 32))

/-- The 64-bit unsigned product (R243). -/
def unsignedProduct (a b : Word) : BitVec 64 := BitVec.ofNat 64 (a.toNat * b.toNat)

/-- The 64-bit signed product (R245). -/
def signedProduct (a b : Word) : BitVec 64 := BitVec.ofInt 64 (a.toInt * b.toInt)

/-- MUL (R241). -/
def execMul (c : Cond) (sf : Bool) (rd rs rm : RegNum) (s : State) : Result :=
  guarded (.mul c sf rd rs rm) s (mulOp sf rd (s.reg rm * s.reg rs) s)

/-- MLA (R242). -/
def execMla (c : Cond) (sf : Bool) (rd rn rs rm : RegNum) (s : State) : Result :=
  guarded (.mla c sf rd rn rs rm) s (mulOp sf rd (s.reg rm * s.reg rs + s.reg rn) s)

/-- UMULL (R243). -/
def execUmull (c : Cond) (sf : Bool) (rdHi rdLo rs rm : RegNum) (s : State) : Result :=
  guarded (.umull c sf rdHi rdLo rs rm) s (mullOp sf rdHi rdLo (unsignedProduct (s.reg rm) (s.reg rs)) s)

/-- UMLAL (R244). -/
def execUmlal (c : Cond) (sf : Bool) (rdHi rdLo rs rm : RegNum) (s : State) : Result :=
  guarded (.umlal c sf rdHi rdLo rs rm) s (mullOp sf rdHi rdLo (unsignedProduct (s.reg rm) (s.reg rs) + (s.reg rdHi ++ s.reg rdLo)) s)

/-- SMULL (R245). -/
def execSmull (c : Cond) (sf : Bool) (rdHi rdLo rs rm : RegNum) (s : State) : Result :=
  guarded (.smull c sf rdHi rdLo rs rm) s (mullOp sf rdHi rdLo (signedProduct (s.reg rm) (s.reg rs)) s)

/-- SMLAL (R246). -/
def execSmlal (c : Cond) (sf : Bool) (rdHi rdLo rs rm : RegNum) (s : State) : Result :=
  guarded (.smlal c sf rdHi rdLo rs rm) s (mullOp sf rdHi rdLo (signedProduct (s.reg rm) (s.reg rs) + (s.reg rdHi ++ s.reg rdLo)) s)

end Sys2Proof.Machine
end

