-- ==== Sys2Proof/Machine/Status.lean ====
section
/-! DEFINITION. MRS and MSR (45_status_register.md). -/

namespace Sys2Proof.Machine

/-- The rule of MRS (R221); bits 27:8 of the value read are a free value (R35, log 13). -/
def mrsOp (spsr : Bool) (d : RegNum) (s : State) : Result :=
  if spsr then
    match s.currentSpsr with
    | none => .fault .noSpsr
    | some w => finishReg d (psrRead w (Config.freeWord s.draws)) (s.draw 1)
  else finishReg d (psrRead s.cpsr (Config.freeWord s.draws)) (s.draw 1)

/-- The bytes of CPSR that an MSR may write: in User mode the flags byte only (R222, R223). -/
def msrMask (mask : BitVec 4) (s : State) : Word :=
  if s.privileged then psrByteMask mask else psrByteMask mask &&& 0xFF000000#32

/-- MSR to CPSR (R222, R225, R226): a change of T and an illegal mode are faults. -/
def msrCpsr (mask : BitVec 4) (v : Word) (s : State) : Result :=
  let new := psrWrite s.cpsr v (msrMask mask s)
  if psrT new ≠ psrT s.cpsr then .fault .psrThumbBit
  else if field (msrMask mask s) 0 5 ≠ 0#5 ∧ legalMode (psrM new) = false then .fault .illegalMode
  else advance (s.setCpsr new)

/-- MSR to the SPSR of the current mode (R222, R224). -/
def msrSpsr (mask : BitVec 4) (v : Word) (s : State) : Result :=
  match s.mode.spsrIdx with
  | none => .fault .noSpsr
  | some k => advance (s.setSpsr k (psrWrite s.spsr[k] v (psrByteMask mask)))

/-- The rule of MSR (R222). -/
def msrOp (spsr : Bool) (mask : BitVec 4) (v : Word) (s : State) : Result :=
  if spsr then msrSpsr mask v s else msrCpsr mask v s

/-- MRS (R221). -/
def execMrs (c : Cond) (spsr : Bool) (rd : RegNum) (s : State) : Result :=
  guarded (.mrs c spsr rd) s (mrsOp spsr rd s)

/-- MSR, register operand (R222). -/
def execMsrReg (c : Cond) (spsr : Bool) (mask : BitVec 4) (rm : RegNum) (s : State) : Result :=
  guarded (.msrReg c spsr mask rm) s (msrOp spsr mask (s.reg rm) s)

/-- MSR, immediate operand (R222). -/
def execMsrImm (c : Cond) (spsr : Bool) (mask rot : BitVec 4) (imm8 : BitVec 8) (s : State) : Result :=
  guarded (.msrImm c spsr mask rot imm8) s (msrOp spsr mask (rotatedImm rot imm8) s)

end Sys2Proof.Machine
end

