-- ==== Sys2Proof/Machine/System.lean ====
section
/-! DEFINITION. SWI, the undefined instruction, and the coprocessor instructions, which all trap: no coprocessor is present
(46_swi_undefined_coprocessor.md). -/

namespace Sys2Proof.Machine

/-- SWI (R231): the Software Interrupt exception; the number is not interpreted (R99). -/
def execSwi (c : Cond) (imm24 : BitVec 24) (s : State) : Result :=
  guarded (.swi c imm24) s (.next (s.takeException .swi))

/-- UNDEFINED (R232): the Undefined Instruction exception. -/
def execUndefined (c : Cond) (hi : BitVec 20) (lo : BitVec 4) (s : State) : Result :=
  guarded (.undefined c hi lo) s (.next (s.takeException .undefined))

/-- LDC (R233): the Undefined Instruction exception. -/
def execLdc (c : Cond) (p u n w : Bool) (rn : RegNum) (crd cp : BitVec 4) (off8 : BitVec 8) (s : State) : Result :=
  guarded (.ldc c p u n w rn crd cp off8) s (.next (s.takeException .undefined))

/-- STC (R233): the Undefined Instruction exception. -/
def execStc (c : Cond) (p u n w : Bool) (rn : RegNum) (crd cp : BitVec 4) (off8 : BitVec 8) (s : State) : Result :=
  guarded (.stc c p u n w rn crd cp off8) s (.next (s.takeException .undefined))

/-- CDP (R233): the Undefined Instruction exception. -/
def execCdp (c : Cond) (op1 crn crd cp : BitVec 4) (op2 : BitVec 3) (crm : BitVec 4) (s : State) : Result :=
  guarded (.cdp c op1 crn crd cp op2 crm) s (.next (s.takeException .undefined))

/-- MCR (R233): the Undefined Instruction exception. -/
def execMcr (c : Cond) (op1 : BitVec 3) (crn : BitVec 4) (rd : RegNum) (cp : BitVec 4) (op2 : BitVec 3) (crm : BitVec 4) (s : State) : Result :=
  guarded (.mcr c op1 crn rd cp op2 crm) s (.next (s.takeException .undefined))

/-- MRC (R233): the Undefined Instruction exception. -/
def execMrc (c : Cond) (op1 : BitVec 3) (crn : BitVec 4) (rd : RegNum) (cp : BitVec 4) (op2 : BitVec 3) (crm : BitVec 4) (s : State) : Result :=
  guarded (.mrc c op1 crn rd cp op2 crm) s (.next (s.takeException .undefined))

end Sys2Proof.Machine
end

