-- ==== Sys2Proof/Machine/Dispatch.lean ====
section
/-! DEFINITION. One arm for each instruction, each a call of its meaning. -/

namespace Sys2Proof.Machine

def exec (i : Instr) (s : State) : Host.Outcome State Fault Refusal :=
  match i with
  | .andImm c sf rn rd rot imm8 => Sys2Proof.Machine.execAndImm c sf rn rd rot imm8 s
  | .andShImm c sf rn rd amount t rm => Sys2Proof.Machine.execAndShImm c sf rn rd amount t rm s
  | .andShReg c sf rn rd rs t rm => Sys2Proof.Machine.execAndShReg c sf rn rd rs t rm s
  | .eorImm c sf rn rd rot imm8 => Sys2Proof.Machine.execEorImm c sf rn rd rot imm8 s
  | .eorShImm c sf rn rd amount t rm => Sys2Proof.Machine.execEorShImm c sf rn rd amount t rm s
  | .eorShReg c sf rn rd rs t rm => Sys2Proof.Machine.execEorShReg c sf rn rd rs t rm s
  | .subImm c sf rn rd rot imm8 => Sys2Proof.Machine.execSubImm c sf rn rd rot imm8 s
  | .subShImm c sf rn rd amount t rm => Sys2Proof.Machine.execSubShImm c sf rn rd amount t rm s
  | .subShReg c sf rn rd rs t rm => Sys2Proof.Machine.execSubShReg c sf rn rd rs t rm s
  | .rsbImm c sf rn rd rot imm8 => Sys2Proof.Machine.execRsbImm c sf rn rd rot imm8 s
  | .rsbShImm c sf rn rd amount t rm => Sys2Proof.Machine.execRsbShImm c sf rn rd amount t rm s
  | .rsbShReg c sf rn rd rs t rm => Sys2Proof.Machine.execRsbShReg c sf rn rd rs t rm s
  | .addImm c sf rn rd rot imm8 => Sys2Proof.Machine.execAddImm c sf rn rd rot imm8 s
  | .addShImm c sf rn rd amount t rm => Sys2Proof.Machine.execAddShImm c sf rn rd amount t rm s
  | .addShReg c sf rn rd rs t rm => Sys2Proof.Machine.execAddShReg c sf rn rd rs t rm s
  | .adcImm c sf rn rd rot imm8 => Sys2Proof.Machine.execAdcImm c sf rn rd rot imm8 s
  | .adcShImm c sf rn rd amount t rm => Sys2Proof.Machine.execAdcShImm c sf rn rd amount t rm s
  | .adcShReg c sf rn rd rs t rm => Sys2Proof.Machine.execAdcShReg c sf rn rd rs t rm s
  | .sbcImm c sf rn rd rot imm8 => Sys2Proof.Machine.execSbcImm c sf rn rd rot imm8 s
  | .sbcShImm c sf rn rd amount t rm => Sys2Proof.Machine.execSbcShImm c sf rn rd amount t rm s
  | .sbcShReg c sf rn rd rs t rm => Sys2Proof.Machine.execSbcShReg c sf rn rd rs t rm s
  | .rscImm c sf rn rd rot imm8 => Sys2Proof.Machine.execRscImm c sf rn rd rot imm8 s
  | .rscShImm c sf rn rd amount t rm => Sys2Proof.Machine.execRscShImm c sf rn rd amount t rm s
  | .rscShReg c sf rn rd rs t rm => Sys2Proof.Machine.execRscShReg c sf rn rd rs t rm s
  | .tstImm c rn rot imm8 => Sys2Proof.Machine.execTstImm c rn rot imm8 s
  | .tstShImm c rn amount t rm => Sys2Proof.Machine.execTstShImm c rn amount t rm s
  | .tstShReg c rn rs t rm => Sys2Proof.Machine.execTstShReg c rn rs t rm s
  | .teqImm c rn rot imm8 => Sys2Proof.Machine.execTeqImm c rn rot imm8 s
  | .teqShImm c rn amount t rm => Sys2Proof.Machine.execTeqShImm c rn amount t rm s
  | .teqShReg c rn rs t rm => Sys2Proof.Machine.execTeqShReg c rn rs t rm s
  | .cmpImm c rn rot imm8 => Sys2Proof.Machine.execCmpImm c rn rot imm8 s
  | .cmpShImm c rn amount t rm => Sys2Proof.Machine.execCmpShImm c rn amount t rm s
  | .cmpShReg c rn rs t rm => Sys2Proof.Machine.execCmpShReg c rn rs t rm s
  | .cmnImm c rn rot imm8 => Sys2Proof.Machine.execCmnImm c rn rot imm8 s
  | .cmnShImm c rn amount t rm => Sys2Proof.Machine.execCmnShImm c rn amount t rm s
  | .cmnShReg c rn rs t rm => Sys2Proof.Machine.execCmnShReg c rn rs t rm s
  | .orrImm c sf rn rd rot imm8 => Sys2Proof.Machine.execOrrImm c sf rn rd rot imm8 s
  | .orrShImm c sf rn rd amount t rm => Sys2Proof.Machine.execOrrShImm c sf rn rd amount t rm s
  | .orrShReg c sf rn rd rs t rm => Sys2Proof.Machine.execOrrShReg c sf rn rd rs t rm s
  | .movImm c sf rd rot imm8 => Sys2Proof.Machine.execMovImm c sf rd rot imm8 s
  | .movShImm c sf rd amount t rm => Sys2Proof.Machine.execMovShImm c sf rd amount t rm s
  | .movShReg c sf rd rs t rm => Sys2Proof.Machine.execMovShReg c sf rd rs t rm s
  | .bicImm c sf rn rd rot imm8 => Sys2Proof.Machine.execBicImm c sf rn rd rot imm8 s
  | .bicShImm c sf rn rd amount t rm => Sys2Proof.Machine.execBicShImm c sf rn rd amount t rm s
  | .bicShReg c sf rn rd rs t rm => Sys2Proof.Machine.execBicShReg c sf rn rd rs t rm s
  | .mvnImm c sf rd rot imm8 => Sys2Proof.Machine.execMvnImm c sf rd rot imm8 s
  | .mvnShImm c sf rd amount t rm => Sys2Proof.Machine.execMvnShImm c sf rd amount t rm s
  | .mvnShReg c sf rd rs t rm => Sys2Proof.Machine.execMvnShReg c sf rd rs t rm s
  | .mul c sf rd rs rm => Sys2Proof.Machine.execMul c sf rd rs rm s
  | .mla c sf rd rn rs rm => Sys2Proof.Machine.execMla c sf rd rn rs rm s
  | .umull c sf rdHi rdLo rs rm => Sys2Proof.Machine.execUmull c sf rdHi rdLo rs rm s
  | .umlal c sf rdHi rdLo rs rm => Sys2Proof.Machine.execUmlal c sf rdHi rdLo rs rm s
  | .smull c sf rdHi rdLo rs rm => Sys2Proof.Machine.execSmull c sf rdHi rdLo rs rm s
  | .smlal c sf rdHi rdLo rs rm => Sys2Proof.Machine.execSmlal c sf rdHi rdLo rs rm s
  | .swp c rn rd rm => Sys2Proof.Machine.execSwp c rn rd rm s
  | .swpb c rn rd rm => Sys2Proof.Machine.execSwpb c rn rd rm s
  | .bx c rm => Sys2Proof.Machine.execBx c rm s
  | .mrs c spsr rd => Sys2Proof.Machine.execMrs c spsr rd s
  | .msrReg c spsr mask rm => Sys2Proof.Machine.execMsrReg c spsr mask rm s
  | .msrImm c spsr mask rot imm8 => Sys2Proof.Machine.execMsrImm c spsr mask rot imm8 s
  | .ldrImm c u w rn rd imm12 => Sys2Proof.Machine.execLdrImm c u w rn rd imm12 s
  | .ldrImmPost c u rn rd imm12 => Sys2Proof.Machine.execLdrImmPost c u rn rd imm12 s
  | .ldrReg c u w rn rd amount t rm => Sys2Proof.Machine.execLdrReg c u w rn rd amount t rm s
  | .ldrRegPost c u rn rd amount t rm => Sys2Proof.Machine.execLdrRegPost c u rn rd amount t rm s
  | .strImm c u w rn rd imm12 => Sys2Proof.Machine.execStrImm c u w rn rd imm12 s
  | .strImmPost c u rn rd imm12 => Sys2Proof.Machine.execStrImmPost c u rn rd imm12 s
  | .strReg c u w rn rd amount t rm => Sys2Proof.Machine.execStrReg c u w rn rd amount t rm s
  | .strRegPost c u rn rd amount t rm => Sys2Proof.Machine.execStrRegPost c u rn rd amount t rm s
  | .ldrbImm c u w rn rd imm12 => Sys2Proof.Machine.execLdrbImm c u w rn rd imm12 s
  | .ldrbImmPost c u rn rd imm12 => Sys2Proof.Machine.execLdrbImmPost c u rn rd imm12 s
  | .ldrbReg c u w rn rd amount t rm => Sys2Proof.Machine.execLdrbReg c u w rn rd amount t rm s
  | .ldrbRegPost c u rn rd amount t rm => Sys2Proof.Machine.execLdrbRegPost c u rn rd amount t rm s
  | .strbImm c u w rn rd imm12 => Sys2Proof.Machine.execStrbImm c u w rn rd imm12 s
  | .strbImmPost c u rn rd imm12 => Sys2Proof.Machine.execStrbImmPost c u rn rd imm12 s
  | .strbReg c u w rn rd amount t rm => Sys2Proof.Machine.execStrbReg c u w rn rd amount t rm s
  | .strbRegPost c u rn rd amount t rm => Sys2Proof.Machine.execStrbRegPost c u rn rd amount t rm s
  | .ldrtImm c u rn rd imm12 => Sys2Proof.Machine.execLdrtImm c u rn rd imm12 s
  | .ldrtReg c u rn rd amount t rm => Sys2Proof.Machine.execLdrtReg c u rn rd amount t rm s
  | .strtImm c u rn rd imm12 => Sys2Proof.Machine.execStrtImm c u rn rd imm12 s
  | .strtReg c u rn rd amount t rm => Sys2Proof.Machine.execStrtReg c u rn rd amount t rm s
  | .ldrbtImm c u rn rd imm12 => Sys2Proof.Machine.execLdrbtImm c u rn rd imm12 s
  | .ldrbtReg c u rn rd amount t rm => Sys2Proof.Machine.execLdrbtReg c u rn rd amount t rm s
  | .strbtImm c u rn rd imm12 => Sys2Proof.Machine.execStrbtImm c u rn rd imm12 s
  | .strbtReg c u rn rd amount t rm => Sys2Proof.Machine.execStrbtReg c u rn rd amount t rm s
  | .ldrhImm c ix u rn rd immH immL => Sys2Proof.Machine.execLdrhImm c ix u rn rd immH immL s
  | .ldrhReg c ix u rn rd rm => Sys2Proof.Machine.execLdrhReg c ix u rn rd rm s
  | .strhImm c ix u rn rd immH immL => Sys2Proof.Machine.execStrhImm c ix u rn rd immH immL s
  | .strhReg c ix u rn rd rm => Sys2Proof.Machine.execStrhReg c ix u rn rd rm s
  | .ldrsbImm c ix u rn rd immH immL => Sys2Proof.Machine.execLdrsbImm c ix u rn rd immH immL s
  | .ldrsbReg c ix u rn rd rm => Sys2Proof.Machine.execLdrsbReg c ix u rn rd rm s
  | .ldrshImm c ix u rn rd immH immL => Sys2Proof.Machine.execLdrshImm c ix u rn rd immH immL s
  | .ldrshReg c ix u rn rd rm => Sys2Proof.Machine.execLdrshReg c ix u rn rd rm s
  | .ldm c p u sf w rn list => Sys2Proof.Machine.execLdm c p u sf w rn list s
  | .stm c p u sf w rn list => Sys2Proof.Machine.execStm c p u sf w rn list s
  | .b c imm24 => Sys2Proof.Machine.execB c imm24 s
  | .bl c imm24 => Sys2Proof.Machine.execBl c imm24 s
  | .swi c imm24 => Sys2Proof.Machine.execSwi c imm24 s
  | .undefined c hi lo => Sys2Proof.Machine.execUndefined c hi lo s
  | .ldc c p u n w rn crd cp off8 => Sys2Proof.Machine.execLdc c p u n w rn crd cp off8 s
  | .stc c p u n w rn crd cp off8 => Sys2Proof.Machine.execStc c p u n w rn crd cp off8 s
  | .cdp c op1 crn crd cp op2 crm => Sys2Proof.Machine.execCdp c op1 crn crd cp op2 crm s
  | .mcr c op1 crn rd cp op2 crm => Sys2Proof.Machine.execMcr c op1 crn rd cp op2 crm s
  | .mrc c op1 crn rd cp op2 crm => Sys2Proof.Machine.execMrc c op1 crn rd cp op2 crm s

end Sys2Proof.Machine
end

