-- ==== Sys2Proof/Machine/Hazard.lean ====
section
/-! DEFINITION. The hazard after an LDM of the User bank (R310(c)): which registers an instruction reads or writes. -/

namespace Sys2Proof.Machine

/-- The register is one of the current mode's banked ones (R310(c)): R8 to R14 in FIQ mode, R13 and R14 in the other exception
modes; User and System have none. -/
def bankedIn (m : Mode) (i : RegNum) : Bool :=
  match m with
  | .usr => false
  | .sys => false
  | .fiq => decide (8 ≤ i.toNat) && decide (i.toNat ≤ 14)
  | .irq => i == 13#4 || i == 14#4
  | .svc => i == 13#4 || i == 14#4
  | .abt => i == 13#4 || i == 14#4
  | .und => i == 13#4 || i == 14#4

/-- R14 where an instruction that traps enters the current mode `m`, whose R14 then takes the link value (R256). A trap into another
mode writes that mode's R14, which the model does not count (DESIGN CHOICE, log 20). -/
def trapLink (e : Exc) (m : Mode) : List RegNum := if e.mode = m then [14#4] else []

/-- The registers of mode `m` that an instruction reads or writes by its own effect: those it names, R14 for BL (R25, R37), R14 for a
trap that enters `m` itself (R231 to R233). The list of an LDM or STM of the User bank names User copies, which are no banked
registers of `m` (R215). The reading of R310(c) is the model's: a Data Abort of the instruction writes R14_abt as an exception entry
and is not counted (DESIGN CHOICE, log 20). -/
def touchedRegs (m : Mode) : Instr → List RegNum
  | .andImm _ _ rn rd _ _ => [rn, rd]
  | .andShImm _ _ rn rd _ _ rm => [rn, rd, rm]
  | .andShReg _ _ rn rd rs _ rm => [rn, rd, rs, rm]
  | .eorImm _ _ rn rd _ _ => [rn, rd]
  | .eorShImm _ _ rn rd _ _ rm => [rn, rd, rm]
  | .eorShReg _ _ rn rd rs _ rm => [rn, rd, rs, rm]
  | .subImm _ _ rn rd _ _ => [rn, rd]
  | .subShImm _ _ rn rd _ _ rm => [rn, rd, rm]
  | .subShReg _ _ rn rd rs _ rm => [rn, rd, rs, rm]
  | .rsbImm _ _ rn rd _ _ => [rn, rd]
  | .rsbShImm _ _ rn rd _ _ rm => [rn, rd, rm]
  | .rsbShReg _ _ rn rd rs _ rm => [rn, rd, rs, rm]
  | .addImm _ _ rn rd _ _ => [rn, rd]
  | .addShImm _ _ rn rd _ _ rm => [rn, rd, rm]
  | .addShReg _ _ rn rd rs _ rm => [rn, rd, rs, rm]
  | .adcImm _ _ rn rd _ _ => [rn, rd]
  | .adcShImm _ _ rn rd _ _ rm => [rn, rd, rm]
  | .adcShReg _ _ rn rd rs _ rm => [rn, rd, rs, rm]
  | .sbcImm _ _ rn rd _ _ => [rn, rd]
  | .sbcShImm _ _ rn rd _ _ rm => [rn, rd, rm]
  | .sbcShReg _ _ rn rd rs _ rm => [rn, rd, rs, rm]
  | .rscImm _ _ rn rd _ _ => [rn, rd]
  | .rscShImm _ _ rn rd _ _ rm => [rn, rd, rm]
  | .rscShReg _ _ rn rd rs _ rm => [rn, rd, rs, rm]
  | .tstImm _ rn _ _ => [rn]
  | .tstShImm _ rn _ _ rm => [rn, rm]
  | .tstShReg _ rn rs _ rm => [rn, rs, rm]
  | .teqImm _ rn _ _ => [rn]
  | .teqShImm _ rn _ _ rm => [rn, rm]
  | .teqShReg _ rn rs _ rm => [rn, rs, rm]
  | .cmpImm _ rn _ _ => [rn]
  | .cmpShImm _ rn _ _ rm => [rn, rm]
  | .cmpShReg _ rn rs _ rm => [rn, rs, rm]
  | .cmnImm _ rn _ _ => [rn]
  | .cmnShImm _ rn _ _ rm => [rn, rm]
  | .cmnShReg _ rn rs _ rm => [rn, rs, rm]
  | .orrImm _ _ rn rd _ _ => [rn, rd]
  | .orrShImm _ _ rn rd _ _ rm => [rn, rd, rm]
  | .orrShReg _ _ rn rd rs _ rm => [rn, rd, rs, rm]
  | .movImm _ _ rd _ _ => [rd]
  | .movShImm _ _ rd _ _ rm => [rd, rm]
  | .movShReg _ _ rd rs _ rm => [rd, rs, rm]
  | .bicImm _ _ rn rd _ _ => [rn, rd]
  | .bicShImm _ _ rn rd _ _ rm => [rn, rd, rm]
  | .bicShReg _ _ rn rd rs _ rm => [rn, rd, rs, rm]
  | .mvnImm _ _ rd _ _ => [rd]
  | .mvnShImm _ _ rd _ _ rm => [rd, rm]
  | .mvnShReg _ _ rd rs _ rm => [rd, rs, rm]
  | .mul _ _ rd rs rm => [rd, rs, rm]
  | .mla _ _ rd rn rs rm => [rd, rn, rs, rm]
  | .umull _ _ rdHi rdLo rs rm => [rdHi, rdLo, rs, rm]
  | .umlal _ _ rdHi rdLo rs rm => [rdHi, rdLo, rs, rm]
  | .smull _ _ rdHi rdLo rs rm => [rdHi, rdLo, rs, rm]
  | .smlal _ _ rdHi rdLo rs rm => [rdHi, rdLo, rs, rm]
  | .swp _ rn rd rm => [rn, rd, rm]
  | .swpb _ rn rd rm => [rn, rd, rm]
  | .bx _ rm => [rm]
  | .mrs _ _ rd => [rd]
  | .msrReg _ _ _ rm => [rm]
  | .msrImm _ _ _ _ _ => []
  | .ldrImm _ _ _ rn rd _ => [rn, rd]
  | .ldrImmPost _ _ rn rd _ => [rn, rd]
  | .ldrReg _ _ _ rn rd _ _ rm => [rn, rd, rm]
  | .ldrRegPost _ _ rn rd _ _ rm => [rn, rd, rm]
  | .strImm _ _ _ rn rd _ => [rn, rd]
  | .strImmPost _ _ rn rd _ => [rn, rd]
  | .strReg _ _ _ rn rd _ _ rm => [rn, rd, rm]
  | .strRegPost _ _ rn rd _ _ rm => [rn, rd, rm]
  | .ldrbImm _ _ _ rn rd _ => [rn, rd]
  | .ldrbImmPost _ _ rn rd _ => [rn, rd]
  | .ldrbReg _ _ _ rn rd _ _ rm => [rn, rd, rm]
  | .ldrbRegPost _ _ rn rd _ _ rm => [rn, rd, rm]
  | .strbImm _ _ _ rn rd _ => [rn, rd]
  | .strbImmPost _ _ rn rd _ => [rn, rd]
  | .strbReg _ _ _ rn rd _ _ rm => [rn, rd, rm]
  | .strbRegPost _ _ rn rd _ _ rm => [rn, rd, rm]
  | .ldrtImm _ _ rn rd _ => [rn, rd]
  | .ldrtReg _ _ rn rd _ _ rm => [rn, rd, rm]
  | .strtImm _ _ rn rd _ => [rn, rd]
  | .strtReg _ _ rn rd _ _ rm => [rn, rd, rm]
  | .ldrbtImm _ _ rn rd _ => [rn, rd]
  | .ldrbtReg _ _ rn rd _ _ rm => [rn, rd, rm]
  | .strbtImm _ _ rn rd _ => [rn, rd]
  | .strbtReg _ _ rn rd _ _ rm => [rn, rd, rm]
  | .ldrhImm _ _ _ rn rd _ _ => [rn, rd]
  | .ldrhReg _ _ _ rn rd rm => [rn, rd, rm]
  | .strhImm _ _ _ rn rd _ _ => [rn, rd]
  | .strhReg _ _ _ rn rd rm => [rn, rd, rm]
  | .ldrsbImm _ _ _ rn rd _ _ => [rn, rd]
  | .ldrsbReg _ _ _ rn rd rm => [rn, rd, rm]
  | .ldrshImm _ _ _ rn rd _ _ => [rn, rd]
  | .ldrshReg _ _ _ rn rd rm => [rn, rd, rm]
  | .ldm _ _ _ sf _ rn list => rn :: if sf && !list.getLsbD 15 then [] else regList list
  | .stm _ _ _ sf _ rn list => rn :: if sf then [] else regList list
  | .b _ _ => []
  | .bl _ _ => [14#4]
  | .swi _ _ => trapLink .swi m
  | .undefined _ _ _ => trapLink .undefined m
  | .ldc _ _ _ _ _ _ _ _ _ => trapLink .undefined m
  | .stc _ _ _ _ _ _ _ _ _ => trapLink .undefined m
  | .cdp _ _ _ _ _ _ _ => trapLink .undefined m
  | .mcr _ _ _ _ _ _ _ => trapLink .undefined m
  | .mrc _ _ _ _ _ _ _ => trapLink .undefined m

/-- The instruction, its condition passing, touches a banked register right after an LDM of the User bank (R310(c), U10). One whose
condition fails touches none (R122, log 20). -/
def breaksHazard (i : Instr) (s : State) : Bool :=
  s.bankHazard && condPassed i.cond s.cpsr && (touchedRegs s.mode i).any (bankedIn s.mode)

end Sys2Proof.Machine
end

