-- ==== Sys2Proof/Machine/Fetch.lean ====
section
/-! DEFINITION. Around the instruction: what is pending at the boundary (R8, R266, R270), the fetch with its two instructions
ahead (R62, R73), and what a step does with the word it fetched. -/

namespace Sys2Proof.Machine

/-- What is asked at this boundary: quiet when the list is empty (log 10). -/
def State.input (s : State) : Inputs := s.inputs.headD Inputs.quiet

/-- The exception taken at the boundary before the next instruction, the highest priority first (R266, R270): Reset, FIQ if
F = 0, IRQ if I = 0. -/
def pendingException (s : State) : Option Exc :=
  if s.input.reset then some .reset
  else if s.input.fiq && !psrF s.cpsr then some .fiq
  else if s.input.irq && !psrI s.cpsr then some .irq
  else none

/-- The state as a step begins: the boundary's input is used up, and the hazard of the instruction before is over. -/
def State.beginStep (s : State) : State := (s.setInputs s.inputs.tail).setHazard false

/-- Fetch the word at an address (R62): its bits, or the mark of a fetch that aborted (R264). -/
def fetchAt (s : State) (a : Word) : Fetched × State :=
  match memRead s a .word with
  | none => (.aborted, s)
  | some r => (.word r.1, r.2)

/-- The instruction about to execute, and the state with the two behind it fetched (R40(a), R73): after a jump all three are
fetched, otherwise only the one at `pc + 8`. -/
def fetchNext (s : State) : Fetched × State :=
  match s.pipe with
  | some p =>
    let f := fetchAt s (s.pc + 8#32)
    (p.first, f.2.setPipe (some ⟨p.second, f.1⟩))
  | none =>
    let f0 := fetchAt s s.pc
    let f1 := fetchAt f0.2 (s.pc + 4#32)
    let f2 := fetchAt f1.2 (s.pc + 8#32)
    (f0.1, f2.2.setPipe (some ⟨f1.1, f2.1⟩))

/-- A step in ARM state without a pending exception (R8, R264, R310(c)): Prefetch Abort where the fetch aborted, a refusal where
the word is no instruction or breaks the hazard, otherwise the instruction, run by `run`. -/
def armStep (run : Instr → State → Result) (s : State) : Result :=
  match fetchNext s.beginStep with
  | (.aborted, t) => .next (t.takeException .prefetchAbort)
  | (.word w, t) =>
    match decodeWord w with
    | .error e => .refused (.decode e)
    | .ok i => if breaksHazard i s then .refused .userBankHazard else run i t

/-- A step in THUMB state without a pending exception: Prefetch Abort where the halfword at PC does not exist, otherwise the
refusal of R4 (logs 22, 23). -/
def thumbStep (s : State) : Result :=
  if s.accessExists s.pc .half then .refused .thumbState else .next (s.beginStep.takeException .prefetchAbort)

/-- A word stored at PC, with nothing fetched ahead. -/
def placeWord (s : State) (w : Word) : State := (s.setMem (s.mem.writeSize s.pc w .word)).setPipe none

end Sys2Proof.Machine
end

