-- ==== Sys2Proof/Machine/Step.lean ====
section
/-! DEFINITION. One step (R8): a pending exception, or fetch, decode and execute; and the placing of one instruction where the
next step fetches it. -/

namespace Sys2Proof.Machine

/-- One step of the machine (R8). -/
def step (s : State) : Host.Outcome State Fault Refusal :=
  match pendingException s with
  | some .reset => .next s.beginStep.takeReset
  | some e => .next (s.beginStep.takeException e)
  | none => if s.thumb then thumbStep s else armStep exec s

/-- The state with an instruction stored where the next step fetches (R62): its bytes at `pc`, little-endian, the bits above
`nbits` zero, and nothing fetched ahead. -/
def State.withFetchWord (s : State) (nbits w : Nat) : State :=
  placeWord s (BitVec.ofNat 32 (w % 2 ^ nbits))

end Sys2Proof.Machine
end

