-- ==== Sys2Proof/Safety.lean ====
section
/-! DEFINITION. What counts as a safe run, the invariant of the machine, and the words in which statements are made: the rows
of the opcode table grouped by instruction, the results the rules give in plain arithmetic, and the frames (what is left
unchanged). -/

namespace Sys2Proof.Machine

/-! Runs. -/

/-- The state after `n` steps that all answer a next state. -/
def stepsTo : Nat → State → Option State
  | 0, s => some s
  | n + 1, s =>
    match step s with
    | .next t => stepsTo n t
    | .fault _ => none
    | .refused _ => none

/-- A run of `n` steps is safe: no step ends in a fault or a refusal. -/
def safeFor (n : Nat) (s : State) : Prop := (stepsTo n s).isSome = true

/-- The next instruction is `B .`, the endless loop that ends a run (R306). -/
def State.atSelfBranch (s : State) : Bool := !s.thumb && (fetchNext s).1 == .word 0xEAFFFFFE#32

/-- The eight words of the vector table sum to zero (R305): what the bootloader checks, not the core. -/
def vectorSumZero (m : Memory) : Bool :=
  m.readSize 0x00#32 .word + m.readSize 0x04#32 .word + m.readSize 0x08#32 .word + m.readSize 0x0C#32 .word +
    m.readSize 0x10#32 .word + m.readSize 0x14#32 .word + m.readSize 0x18#32 .word + m.readSize 0x1C#32 .word == 0#32

/-- What every step keeps, and the reset state has. -/
structure State.Inv (s : State) : Prop where
  /-- Memory is in its canonical form (log 4). -/
  memory : s.mem.wf = true
  /-- In ARM state PC is a multiple of four (R28, R65). -/
  alignedArm : s.thumb = false → field s.pc 0 2 = 0#2
  /-- In THUMB state PC is even (R65, R134). -/
  alignedThumb : s.thumb = true → bitAt s.pc 0 = false
  /-- M[4:0] is one of the seven modes (R34, R226). -/
  mode : legalMode (psrM s.cpsr) = true
  /-- Bits 27:8 of CPSR ignore every write (R35). -/
  reserved : field s.cpsr 8 20 = 0#20
  /-- So do those of every SPSR (R35, R36). -/
  reservedSpsr : ∀ k : SpsrIdx, field s.spsr[k] 8 20 = 0#20

/-! Frames: what is left unchanged. -/

/-- Every general register of every bank outside the list holds what it held (R22, R23). -/
def SameRegs (s t : State) (written : List PReg) : Prop := ∀ p, p ∉ written → t.preg p = s.preg p

/-- Every byte of memory outside the list reads as it read. -/
def SameBytes (s t : State) (stored : List Nat) : Prop := ∀ a, a ∉ stored → t.mem.read a = s.mem.read a

/-- Every SPSR outside the list holds what it held. -/
def SameSpsr (s t : State) (written : List SpsrIdx) : Prop := ∀ k, k ∉ written → t.spsr[k] = s.spsr[k]

/-- I, F, T, M and bits 27:8 of CPSR hold what they held. -/
def SameControl (s t : State) : Prop := field t.cpsr 0 28 = field s.cpsr 0 28

/-- N, Z, C and V hold what they held. -/
def SameFlags (s t : State) : Prop := field t.cpsr 28 4 = field s.cpsr 28 4

/-- The inputs still to come and the parameters of R5 are what they were. -/
def SameWorld (s t : State) : Prop := t.inputs = s.inputs ∧ t.platform = s.platform

/-- Only the listed registers and bytes have changed, and perhaps PC, the flags, the pipeline and the model's own records. -/
def OnlyChanges (s t : State) (regs : List PReg) (bytes : List Nat) : Prop :=
  SameRegs s t regs ∧ SameBytes s t bytes ∧ SameSpsr s t [] ∧ SameControl s t ∧ SameWorld s t

/-- N, Z, C and V are these. -/
def FlagsAre (t : State) (n z c v : Bool) : Prop :=
  psrN t.cpsr = n ∧ psrZ t.cpsr = z ∧ psrC t.cpsr = c ∧ psrV t.cpsr = v

/-- The instruction can be followed sequentially (R29), or writes PC itself. -/
def Follows (s : State) (writesPc : Bool) : Prop := writesPc = true ∨ s.pc < 0xFFFFFFFC#32

/-- The condition passes and the operands are not UNPREDICTABLE (R120, R121). -/
def Runs (i : Instr) (s : State) : Prop := condPassed i.cond s.cpsr = true ∧ i.wellFormed = true

/-- The SPSR a mode uses, as a list of none or one. -/
def spsrsOf (m : Mode) : List SpsrIdx := m.spsrIdx.toList

/-- Bit 31. -/
def negative (w : Word) : Bool := decide (w.toInt < 0)

/-- `t` is `s` after the entry of exception `e` (R256, R257, R251, R252), with `regs` written beside R14 of the new mode. -/
def Entered (s t : State) (e : Exc) (regs : List PReg) (bytes : List Nat) : Prop :=
  t.preg (bank e.mode 14#4) = s.pc + e.linkOffset s.thumb ∧
  (∀ k, e.mode.spsrIdx = some k → t.spsr[k] = s.cpsr) ∧ SameSpsr s t (spsrsOf e.mode) ∧
  psrM t.cpsr = e.mode.bits ∧ psrT t.cpsr = false ∧ psrI t.cpsr = true ∧
  psrF t.cpsr = (if e = .reset ∨ e = .fiq then true
    else if e = .irq then psrF s.cpsr || s.platform.irqEntrySetsF else psrF s.cpsr) ∧
  SameFlags s t ∧ field t.cpsr 8 20 = field s.cpsr 8 20 ∧
  t.pc = e.vector ∧ t.pipe = none ∧
  SameRegs s t (bank e.mode 14#4 :: regs) ∧ SameBytes s t bytes ∧ SameWorld s t

/-! Data processing: the rows of the table by opcode, and what the rules compute. -/

/-- The twelve instructions with a destination. -/
inductive DataOpcode where
  | and | eor | sub | rsb | add | adc | sbc | rsc | orr | mov | bic | mvn
deriving DecidableEq, Repr

/-- The four that only set flags. -/
inductive TestOpcode where
  | tst | teq | cmp | cmn
deriving DecidableEq, Repr

/-- The row of an opcode for each form of the second operand (R143); MOV and MVN have no Rn. -/
def DataOpcode.row (op : DataOpcode) (c : Cond) (sf : Bool) (rn rd : RegNum) (o : Operand2) : Instr :=
  match op, o with
  | .and, .imm rot imm8 => .andImm c sf rn rd rot imm8
  | .and, .shImm a t rm => .andShImm c sf rn rd a t rm
  | .and, .shReg rs t rm => .andShReg c sf rn rd rs t rm
  | .eor, .imm rot imm8 => .eorImm c sf rn rd rot imm8
  | .eor, .shImm a t rm => .eorShImm c sf rn rd a t rm
  | .eor, .shReg rs t rm => .eorShReg c sf rn rd rs t rm
  | .sub, .imm rot imm8 => .subImm c sf rn rd rot imm8
  | .sub, .shImm a t rm => .subShImm c sf rn rd a t rm
  | .sub, .shReg rs t rm => .subShReg c sf rn rd rs t rm
  | .rsb, .imm rot imm8 => .rsbImm c sf rn rd rot imm8
  | .rsb, .shImm a t rm => .rsbShImm c sf rn rd a t rm
  | .rsb, .shReg rs t rm => .rsbShReg c sf rn rd rs t rm
  | .add, .imm rot imm8 => .addImm c sf rn rd rot imm8
  | .add, .shImm a t rm => .addShImm c sf rn rd a t rm
  | .add, .shReg rs t rm => .addShReg c sf rn rd rs t rm
  | .adc, .imm rot imm8 => .adcImm c sf rn rd rot imm8
  | .adc, .shImm a t rm => .adcShImm c sf rn rd a t rm
  | .adc, .shReg rs t rm => .adcShReg c sf rn rd rs t rm
  | .sbc, .imm rot imm8 => .sbcImm c sf rn rd rot imm8
  | .sbc, .shImm a t rm => .sbcShImm c sf rn rd a t rm
  | .sbc, .shReg rs t rm => .sbcShReg c sf rn rd rs t rm
  | .rsc, .imm rot imm8 => .rscImm c sf rn rd rot imm8
  | .rsc, .shImm a t rm => .rscShImm c sf rn rd a t rm
  | .rsc, .shReg rs t rm => .rscShReg c sf rn rd rs t rm
  | .orr, .imm rot imm8 => .orrImm c sf rn rd rot imm8
  | .orr, .shImm a t rm => .orrShImm c sf rn rd a t rm
  | .orr, .shReg rs t rm => .orrShReg c sf rn rd rs t rm
  | .mov, .imm rot imm8 => .movImm c sf rd rot imm8
  | .mov, .shImm a t rm => .movShImm c sf rd a t rm
  | .mov, .shReg rs t rm => .movShReg c sf rd rs t rm
  | .bic, .imm rot imm8 => .bicImm c sf rn rd rot imm8
  | .bic, .shImm a t rm => .bicShImm c sf rn rd a t rm
  | .bic, .shReg rs t rm => .bicShReg c sf rn rd rs t rm
  | .mvn, .imm rot imm8 => .mvnImm c sf rd rot imm8
  | .mvn, .shImm a t rm => .mvnShImm c sf rd a t rm
  | .mvn, .shReg rs t rm => .mvnShReg c sf rd rs t rm

/-- The row of an opcode for each form of the second operand (R143). -/
def TestOpcode.row (op : TestOpcode) (c : Cond) (rn : RegNum) (o : Operand2) : Instr :=
  match op, o with
  | .tst, .imm rot imm8 => .tstImm c rn rot imm8
  | .tst, .shImm a t rm => .tstShImm c rn a t rm
  | .tst, .shReg rs t rm => .tstShReg c rn rs t rm
  | .teq, .imm rot imm8 => .teqImm c rn rot imm8
  | .teq, .shImm a t rm => .teqShImm c rn a t rm
  | .teq, .shReg rs t rm => .teqShReg c rn rs t rm
  | .cmp, .imm rot imm8 => .cmpImm c rn rot imm8
  | .cmp, .shImm a t rm => .cmpShImm c rn a t rm
  | .cmp, .shReg rs t rm => .cmpShReg c rn rs t rm
  | .cmn, .imm rot imm8 => .cmnImm c rn rot imm8
  | .cmn, .shImm a t rm => .cmnShImm c rn a t rm
  | .cmn, .shReg rs t rm => .cmnShReg c rn rs t rm

/-- One more when the carry is in. -/
def carryWord (c : Bool) : Word := if c then 1#32 else 0#32

/-- The signed sum or difference does not fit in 32 bits. -/
def outOfRange (x : Int) : Bool := decide (x < -(2 ^ 31)) || decide (2 ^ 31 ≤ x)

/-- The result of an instruction with a destination: `a` is Rn, `b` the second operand, `c` the C flag before (R151 to R158, R163
to R166). -/
def DataOpcode.result (op : DataOpcode) (a b : Word) (c : Bool) : Word :=
  match op with
  | .and => a &&& b
  | .eor => a ^^^ b
  | .sub => a - b
  | .rsb => b - a
  | .add => a + b
  | .adc => a + b + carryWord c
  | .sbc => a - b - carryWord (!c)
  | .rsc => b - a - carryWord (!c)
  | .orr => a ||| b
  | .mov => b
  | .bic => a &&& ~~~b
  | .mvn => ~~~b

/-- The C flag the instruction leaves with S (R147): the shifter's carry-out `sco`, the carry of the sum, or "no borrow". -/
def DataOpcode.carry (op : DataOpcode) (a b : Word) (c sco : Bool) : Bool :=
  match op with
  | .and => sco
  | .eor => sco
  | .sub => decide (b.toNat ≤ a.toNat)
  | .rsb => decide (a.toNat ≤ b.toNat)
  | .add => decide (2 ^ 32 ≤ a.toNat + b.toNat)
  | .adc => decide (2 ^ 32 ≤ a.toNat + b.toNat + c.toNat)
  | .sbc => decide (b.toNat + (!c).toNat ≤ a.toNat)
  | .rsc => decide (a.toNat + (!c).toNat ≤ b.toNat)
  | .orr => sco
  | .mov => sco
  | .bic => sco
  | .mvn => sco

/-- The V flag the instruction leaves with S (R147): kept, or the signed overflow. -/
def DataOpcode.overflow (op : DataOpcode) (a b : Word) (c v : Bool) : Bool :=
  match op with
  | .and => v
  | .eor => v
  | .sub => outOfRange (a.toInt - b.toInt)
  | .rsb => outOfRange (b.toInt - a.toInt)
  | .add => outOfRange (a.toInt + b.toInt)
  | .adc => outOfRange (a.toInt + b.toInt + (c.toNat : Int))
  | .sbc => outOfRange (a.toInt - b.toInt - ((!c).toNat : Int))
  | .rsc => outOfRange (b.toInt - a.toInt - ((!c).toNat : Int))
  | .orr => v
  | .mov => v
  | .bic => v
  | .mvn => v

/-- The opcode of the destination form that computes the same (R159 to R162). -/
def TestOpcode.base : TestOpcode → DataOpcode
  | .tst => .and
  | .teq => .eor
  | .cmp => .sub
  | .cmn => .add

/-- The six of the logical group that have a destination (R147). -/
def DataOpcode.logical : DataOpcode → Bool
  | .and => true
  | .eor => true
  | .sub => false
  | .rsb => false
  | .add => false
  | .adc => false
  | .sbc => false
  | .rsc => false
  | .orr => true
  | .mov => true
  | .bic => true
  | .mvn => true

/-- The second operand and the shifter's carry-out give this opcode's result at this state. -/
def State.dataResult (s : State) (op : DataOpcode) (rn : RegNum) (o : Operand2) : Word :=
  op.result (s.reg rn) (operand2 o s).value (psrC s.cpsr)

/-- The four flags of R147 for an opcode at a state. -/
def State.dataFlags (s t : State) (op : DataOpcode) (rn : RegNum) (o : Operand2) : Prop :=
  FlagsAre t (negative (s.dataResult op rn o)) (s.dataResult op rn o == 0#32)
    (op.carry (s.reg rn) (operand2 o s).value (psrC s.cpsr) (operand2 o s).carry)
    (op.overflow (s.reg rn) (operand2 o s).value (psrC s.cpsr) (psrV s.cpsr))

/-! Single transfers: the rows of the table by instruction. -/

/-- The indexing forms of a word or byte transfer (R181); `user` is the T variant (R193). -/
inductive LsIndex where
  | offset | preIndexed | postIndexed | user
deriving DecidableEq, Repr

/-- The offset is applied before the transfer. -/
def LsIndex.p : LsIndex → Bool
  | .offset => true
  | .preIndexed => true
  | .postIndexed => false
  | .user => false

/-- The base is written back. -/
def LsIndex.writesBack : LsIndex → Bool
  | .offset => false
  | .preIndexed => true
  | .postIndexed => true
  | .user => true

/-- The rows of LDR and LDRT (R184, R193). -/
def ldrRow (c : Cond) (ix : LsIndex) (u : Bool) (rn rd : RegNum) (o : LsOffset) : Instr :=
  match ix, o with
  | .offset, .imm i => .ldrImm c u false rn rd i
  | .offset, .reg a t rm => .ldrReg c u false rn rd a t rm
  | .preIndexed, .imm i => .ldrImm c u true rn rd i
  | .preIndexed, .reg a t rm => .ldrReg c u true rn rd a t rm
  | .postIndexed, .imm i => .ldrImmPost c u rn rd i
  | .postIndexed, .reg a t rm => .ldrRegPost c u rn rd a t rm
  | .user, .imm i => .ldrtImm c u rn rd i
  | .user, .reg a t rm => .ldrtReg c u rn rd a t rm

/-- The rows of STR and STRT (R186, R193). -/
def strRow (c : Cond) (ix : LsIndex) (u : Bool) (rn rd : RegNum) (o : LsOffset) : Instr :=
  match ix, o with
  | .offset, .imm i => .strImm c u false rn rd i
  | .offset, .reg a t rm => .strReg c u false rn rd a t rm
  | .preIndexed, .imm i => .strImm c u true rn rd i
  | .preIndexed, .reg a t rm => .strReg c u true rn rd a t rm
  | .postIndexed, .imm i => .strImmPost c u rn rd i
  | .postIndexed, .reg a t rm => .strRegPost c u rn rd a t rm
  | .user, .imm i => .strtImm c u rn rd i
  | .user, .reg a t rm => .strtReg c u rn rd a t rm

/-- The rows of LDRB and LDRBT (R187, R193). -/
def ldrbRow (c : Cond) (ix : LsIndex) (u : Bool) (rn rd : RegNum) (o : LsOffset) : Instr :=
  match ix, o with
  | .offset, .imm i => .ldrbImm c u false rn rd i
  | .offset, .reg a t rm => .ldrbReg c u false rn rd a t rm
  | .preIndexed, .imm i => .ldrbImm c u true rn rd i
  | .preIndexed, .reg a t rm => .ldrbReg c u true rn rd a t rm
  | .postIndexed, .imm i => .ldrbImmPost c u rn rd i
  | .postIndexed, .reg a t rm => .ldrbRegPost c u rn rd a t rm
  | .user, .imm i => .ldrbtImm c u rn rd i
  | .user, .reg a t rm => .ldrbtReg c u rn rd a t rm

/-- The rows of STRB and STRBT (R188, R193). -/
def strbRow (c : Cond) (ix : LsIndex) (u : Bool) (rn rd : RegNum) (o : LsOffset) : Instr :=
  match ix, o with
  | .offset, .imm i => .strbImm c u false rn rd i
  | .offset, .reg a t rm => .strbReg c u false rn rd a t rm
  | .preIndexed, .imm i => .strbImm c u true rn rd i
  | .preIndexed, .reg a t rm => .strbReg c u true rn rd a t rm
  | .postIndexed, .imm i => .strbImmPost c u rn rd i
  | .postIndexed, .reg a t rm => .strbRegPost c u rn rd a t rm
  | .user, .imm i => .strbtImm c u rn rd i
  | .user, .reg a t rm => .strbtReg c u rn rd a t rm

/-- The rows of LDRH (R189). -/
def ldrhRow (c : Cond) (ix : HsIndex) (u : Bool) (rn rd : RegNum) (o : HsOffset) : Instr :=
  match o with
  | .imm h l => .ldrhImm c ix u rn rd h l
  | .reg rm => .ldrhReg c ix u rn rd rm

/-- The rows of STRH (R190). -/
def strhRow (c : Cond) (ix : HsIndex) (u : Bool) (rn rd : RegNum) (o : HsOffset) : Instr :=
  match o with
  | .imm h l => .strhImm c ix u rn rd h l
  | .reg rm => .strhReg c ix u rn rd rm

/-- The rows of LDRSB (R192). -/
def ldrsbRow (c : Cond) (ix : HsIndex) (u : Bool) (rn rd : RegNum) (o : HsOffset) : Instr :=
  match o with
  | .imm h l => .ldrsbImm c ix u rn rd h l
  | .reg rm => .ldrsbReg c ix u rn rd rm

/-- The rows of LDRSH (R191). -/
def ldrshRow (c : Cond) (ix : HsIndex) (u : Bool) (rn rd : RegNum) (o : HsOffset) : Instr :=
  match o with
  | .imm h l => .ldrshImm c ix u rn rd h l
  | .reg rm => .ldrshReg c ix u rn rd rm

/-- The base plus or minus the offset (R181, R182). -/
def indexed (u : Bool) (base offset : Word) : Word := if u then base + offset else base - offset

/-- What a read of `n` bytes at `a` gives: memory's bytes, or the device's answer (R61, R69). -/
def State.readValue (s : State) (a : Word) (n : AccessSize) : Word :=
  if s.accessDevice a n then Config.deviceRead s.io a n &&& sizeMask n else s.mem.readSize a n

/-- The device history after a read (R69). -/
def State.ioAfterRead (s : State) (a : Word) (n : AccessSize) : List IoEvent :=
  if s.accessDevice a n then .read a n :: s.io else s.io

/-- The base register, as a list of none or one. -/
def baseRegs (m : Mode) (n : RegNum) (wb : Bool) : List PReg := if wb then [bank m n] else []

/-- After a transfer the base holds the written-back value, where it is written back (R181, R182). -/
def BaseWritten (s t : State) (n : RegNum) (a : Addressing) : Prop :=
  ∀ v, a.writeback = some v → t.preg (bank s.mode n) = v

/-- `t` is `s` after a load into Rd of the value `v` read at `a` (`n` bytes): Rd, or a jump for R15 (R184, R185, R187); the base;
nothing else. -/
def Loaded (s t : State) (rn rd : RegNum) (wb : Bool) (addr : Addressing) (a : Word) (n : AccessSize) (v : Word) : Prop :=
  (if rd = pcNum then t.pc = v &&& 0xFFFFFFFC#32 ∧ t.pipe = none
    else t.preg (bank s.mode rd) = v ∧ t.pc = s.pc + 4#32) ∧
  BaseWritten s t rn addr ∧
  OnlyChanges s t ((if rd = pcNum then [] else [bank s.mode rd]) ++ baseRegs s.mode rn wb) [] ∧
  SameFlags s t ∧ t.io = s.ioAfterRead a n

/-- The bytes of `v` stand at `a`, or the device at `a` has been written; every other byte is as it was (R61, R69). -/
def StoredAt (s t : State) (a : Word) (n : AccessSize) (v : Word) : Prop :=
  if s.accessDevice a n then SameBytes s t [] ∧ t.io = .write a n (v &&& sizeMask n) :: s.io
  else (∀ k, k < n.bytes → t.mem.read (byteAddr a k) = byteOf v k) ∧ SameBytes s t (accessAddrs a n) ∧ t.io = s.io

/-- `t` is `s` after a store of `v` at `a`: the bytes; the base; nothing else (R186, R188, R190). -/
def Stored (s t : State) (rn : RegNum) (wb : Bool) (addr : Addressing) (a : Word) (n : AccessSize) (v : Word) : Prop :=
  t.pc = s.pc + 4#32 ∧ StoredAt s t a n v ∧ BaseWritten s t rn addr ∧
  OnlyChanges s t (baseRegs s.mode rn wb) (accessAddrs a n) ∧ SameFlags s t

/-- `t` is `s` after a transfer that aborted (R183, R263): Data Abort entered, the base as ABORT_BASE says, nothing stored. -/
def Aborted (s t : State) (rn : RegNum) (wb : Bool) (addr : Addressing) : Prop :=
  Entered s t .dataAbort (if s.platform.abortBaseUpdated then baseRegs s.mode rn wb else []) [] ∧
  (s.platform.abortBaseUpdated = true → bank s.mode rn ≠ bank .abt 14#4 → BaseWritten s t rn addr)

/-- The two rows of MSR, with the operand of each (R222). -/
def MsrRow (c : Cond) (spsr : Bool) (mask : BitVec 4) (v : Word) (s : State) (i : Instr) : Prop :=
  (∃ rm, i = .msrReg c spsr mask rm ∧ v = s.reg rm) ∨
  (∃ rot imm8, i = .msrImm c spsr mask rot imm8 ∧ v = rotatedImm rot imm8)

/-! Block transfers. -/

/-- The lowest address of a block transfer, row by row of the table (R211, R212). -/
def blockLowest (p u : Bool) (base : Word) (cnt : Nat) : Word :=
  if u then (if p then base + 4#32 else base)
  else (if p then base - BitVec.ofNat 32 (4 * cnt) else base - BitVec.ofNat 32 (4 * cnt) + 4#32)

/-- The registers of a list but R15, in a mode's bank. -/
def listedRegs (m : Mode) (list : BitVec 16) : List PReg := ((regList list).filter (· ≠ pcNum)).map (bank m)

/-- Every address of the transfer exists. -/
def AllExist (s : State) (addrs : List Word) : Prop := ∀ a ∈ addrs, s.accessExists a .word = true

/-- The words a block load reads, in order, and the device history after; where no address is a device's they are memory's words
and the history is unchanged (R69, R211). -/
def BlockRead (s : State) (addrs vals : List Word) (io : List IoEvent) : Prop :=
  (readBlock addrs s).1 = some vals ∧ (readBlock addrs s).2.io = io ∧
  ((∀ a ∈ addrs, s.accessDevice a .word = false) → vals = addrs.map (fun a => s.mem.readSize a .word) ∧ io = s.io)

/-- Each register of the list but R15 holds, in a mode's bank, the word of its place (R211, R213). -/
def ListLoaded (t : State) (m : Mode) (list : BitVec 16) (vals : List Word) : Prop :=
  ∀ (k : Nat) (i : RegNum) (v : Word), (regList list)[k]? = some i → vals[k]? = some v → i ≠ pcNum →
    t.preg (bank m i) = v

/-- What STM stores from a register (R215(c), R216). -/
def State.blockValue (s : State) (sf : Bool) (i : RegNum) : Word :=
  if i = pcNum then s.pc + 12#32 else s.preg (bank (if sf then .usr else s.mode) i)

/-- The bytes of an STM's addresses. -/
def blockBytes (addrs : List Word) : List Nat := addrs.flatMap fun a => accessAddrs a .word

/-- The word of an address stands there, or the address is a device's and memory there is as it was. -/
def WordStored (s t : State) (a v : Word) : Prop :=
  ∀ j, j < 4 → t.mem.read (byteAddr a j) = if s.accessDevice a .word then s.mem.read (byteAddr a j) else byteOf v j

/-! The fetch window. -/

/-- The word the next step runs is `w` (R62, R73): the one fetched ahead, or, after a jump, the one at PC. -/
def State.nextWord (s : State) (w : Word) : Prop :=
  (∀ p, s.pipe = some p → p.first = .word w) ∧
  (s.pipe = none → s.accessExists s.pc .word = true ∧ s.readValue s.pc .word = w)

/-- `t` is `s` but for the pipeline, the device history, the hazard mark and the input used up. -/
def SameCore (s t : State) : Prop :=
  t.regs = s.regs ∧ t.pc = s.pc ∧ t.cpsr = s.cpsr ∧ t.spsr = s.spsr ∧ t.mem = s.mem ∧ t.draws = s.draws ∧
  t.platform = s.platform

end Sys2Proof.Machine
end

