-- ==== Sys2Proof/Certificates/Slice0/Obligations.lean ====
section
/-! DEFINITION. The statements for the provers. Hypotheses are on the state and the operands alone; `Runs i s` is "the condition
passes and the operands are not UNPREDICTABLE", `OnlyChanges`, `Loaded`, `Stored`, `Entered` are the frames of Safety.lean. -/

open Sys2Proof Sys2Proof.Machine

/-! Encoding. -/

/-- The four bytes of every encoded instruction decode to that instruction, every operand at every value (R90 to R100). -/
def Obligations.DecodingInvertsEncoding : Prop :=
  ∀ i : Instr, decodeBytes (byteOf (encode i) 0) (byteOf (encode i) 1) (byteOf (encode i) 2) (byteOf (encode i) 3) = .ok i

/-- A word that decodes to an instruction is the word of that instruction: no bit of a word is ignored, no two words are one
instruction, and a word with a wrong should-be field decodes to none (R92, R100, R110). -/
def Obligations.EncodingInvertsDecoding : Prop :=
  ∀ (w : Word) (i : Instr), decodeWord w = .ok i → encode i = w

/-- Words of the spec's examples decode to the instructions they are printed for. -/
def Obligations.PrintedWordsDecode : Prop :=
  decodeWord 0xE0910002#32 = .ok (.addShImm .al true 1#4 0#4 0#5 .lsl 2#4) ∧
  decodeWord 0xE1821203#32 = .ok (.orrShImm .al false 2#4 1#4 4#5 .lsl 3#4) ∧
  decodeWord 0xE3510001#32 = .ok (.cmpImm .al 1#4 0#4 1#8) ∧
  decodeWord 0xE0203291#32 = .ok (.mla .al false 0#4 3#4 2#4 1#4) ∧
  decodeWord 0xE1D100B2#32 = .ok (.ldrhImm .al .offset true 1#4 0#4 0#4 2#4) ∧
  decodeWord 0xE5810004#32 = .ok (.strImm .al true false 1#4 0#4 4#12) ∧
  decodeWord 0xE1020091#32 = .ok (.swp .al 2#4 0#4 1#4) ∧
  decodeWord 0xE92D400F#32 = .ok (.stm .al true false false true 13#4 0x400F#16) ∧
  decodeWord 0xEB000002#32 = .ok (.bl .al 2#24) ∧
  decodeWord 0xE121F000#32 = .ok (.msrReg .al false 1#4 0#4) ∧
  decodeWord 0xEF123456#32 = .ok (.swi .al 0x123456#24)

/-- A word is refused as "never" exactly when bits 31:28 are 1111 (R109); the places of STRSH and STRSB (R107) and of BLX (R108,
register form) hold no instruction. -/
def Obligations.AbsentInstructionsRefused : Prop :=
  (∀ w : Word, decodeWord w = .error .condNever ↔ field w 28 4 = 0b1111#4) ∧
  (∀ w : Word, field w 28 4 ≠ 0b1111#4 → field w 25 3 = 0#3 → bitAt w 20 = false → bitAt w 7 = true → bitAt w 6 = true →
    bitAt w 4 = true → decodeWord w = .error .signedStore) ∧
  (∀ w : Word, field w 28 4 ≠ 0b1111#4 → field w 4 24 = 0x12FFF3#24 → decodeWord w = .error .blxAbsent)

/-! Conditions. -/

/-- The table of conditions: the code of each and when it passes (R121). -/
def Obligations.ConditionTable : Prop :=
  (Cond.ofBits 0b0000#4 = some .eq ∧ ∀ w, condPassed .eq w = true ↔ psrZ w = true) ∧
  (Cond.ofBits 0b0001#4 = some .ne ∧ ∀ w, condPassed .ne w = true ↔ psrZ w = false) ∧
  (Cond.ofBits 0b0010#4 = some .cs ∧ ∀ w, condPassed .cs w = true ↔ psrC w = true) ∧
  (Cond.ofBits 0b0011#4 = some .cc ∧ ∀ w, condPassed .cc w = true ↔ psrC w = false) ∧
  (Cond.ofBits 0b0100#4 = some .mi ∧ ∀ w, condPassed .mi w = true ↔ psrN w = true) ∧
  (Cond.ofBits 0b0101#4 = some .pl ∧ ∀ w, condPassed .pl w = true ↔ psrN w = false) ∧
  (Cond.ofBits 0b0110#4 = some .vs ∧ ∀ w, condPassed .vs w = true ↔ psrV w = true) ∧
  (Cond.ofBits 0b0111#4 = some .vc ∧ ∀ w, condPassed .vc w = true ↔ psrV w = false) ∧
  (Cond.ofBits 0b1000#4 = some .hi ∧ ∀ w, condPassed .hi w = true ↔ psrC w = true ∧ psrZ w = false) ∧
  (Cond.ofBits 0b1001#4 = some .ls ∧ ∀ w, condPassed .ls w = true ↔ psrC w = false ∨ psrZ w = true) ∧
  (Cond.ofBits 0b1010#4 = some .ge ∧ ∀ w, condPassed .ge w = true ↔ psrN w = psrV w) ∧
  (Cond.ofBits 0b1011#4 = some .lt ∧ ∀ w, condPassed .lt w = true ↔ psrN w ≠ psrV w) ∧
  (Cond.ofBits 0b1100#4 = some .gt ∧ ∀ w, condPassed .gt w = true ↔ psrZ w = false ∧ psrN w = psrV w) ∧
  (Cond.ofBits 0b1101#4 = some .le ∧ ∀ w, condPassed .le w = true ↔ psrZ w = true ∨ psrN w ≠ psrV w) ∧
  (Cond.ofBits 0b1110#4 = some .al ∧ ∀ w, condPassed .al w = true) ∧
  Cond.ofBits 0b1111#4 = none

/-- Every instruction whose condition fails changes nothing but PC, which goes to the next word (R122). -/
def Obligations.FailedConditionOnlyAdvances : Prop :=
  ∀ (i : Instr) (s : State), condPassed i.cond s.cpsr = false → s.pc < 0xFFFFFFFC#32 →
    exec i s = .next (s.setPc (s.pc + 4#32))

/-- Every instruction whose operands the spec calls UNPREDICTABLE is refused by that name, when its condition passes; among them every
halfword or signed transfer with P = 0 and W = 1, whatever its registers (R182; that a failed condition comes first is log 15). -/
def Obligations.UnpredictableOperandsRefused : Prop :=
  (∀ (i : Instr) (s : State) (r : Restriction), condPassed i.cond s.cpsr = true → i.restriction = some r →
    exec i s = .refused (.unpredictable r)) ∧
  (∀ (c : Cond) (u : Bool) (rn rd : RegNum) (o : HsOffset) (s : State) (i : Instr),
    i = ldrhRow c .postIndexedW u rn rd o ∨ i = strhRow c .postIndexedW u rn rd o ∨ i = ldrsbRow c .postIndexedW u rn rd o ∨
      i = ldrshRow c .postIndexedW u rn rd o →
    condPassed c s.cpsr = true → exec i s = .refused (.unpredictable .postWriteback))

/-! Data processing. -/

/-- AND, EOR, ORR, BIC, MOV, MVN in all three forms, Rd not R15: the result, with S the flags (N, Z, the shifter's carry-out, V
kept), the next word, and nothing else (R147, R148, R151, R152, R163 to R166). -/
def Obligations.LogicalInstructions : Prop :=
  ∀ (op : DataOpcode) (c : Cond) (sf : Bool) (rn rd : RegNum) (o : Operand2) (s : State), op.logical = true →
    Runs (op.row c sf rn rd o) s → rd ≠ pcNum → s.pc < 0xFFFFFFFC#32 →
    ∃ t, exec (op.row c sf rn rd o) s = .next t ∧ t.preg (bank s.mode rd) = s.dataResult op rn o ∧
      (if sf then s.dataFlags t op rn o else SameFlags s t) ∧ t.pc = s.pc + 4#32 ∧
      OnlyChanges s t [bank s.mode rd] [] ∧ t.io = s.io

/-- SUB, RSB, ADD, ADC, SBC, RSC in all three forms, Rd not R15: the result modulo 2^32, with S the flags (N, Z, the unsigned
carry or "no borrow", the signed overflow), the next word, and nothing else (R147, R148, R153 to R158). -/
def Obligations.ArithmeticInstructions : Prop :=
  ∀ (op : DataOpcode) (c : Cond) (sf : Bool) (rn rd : RegNum) (o : Operand2) (s : State), op.logical = false →
    Runs (op.row c sf rn rd o) s → rd ≠ pcNum → s.pc < 0xFFFFFFFC#32 →
    ∃ t, exec (op.row c sf rn rd o) s = .next t ∧ t.preg (bank s.mode rd) = s.dataResult op rn o ∧
      (if sf then s.dataFlags t op rn o else SameFlags s t) ∧ t.pc = s.pc + 4#32 ∧
      OnlyChanges s t [bank s.mode rd] [] ∧ t.io = s.io

/-- TST, TEQ, CMP, CMN in all three forms: the flags of AND, EOR, SUB, ADD, and no register (R147, R159 to R162). -/
def Obligations.TestInstructions : Prop :=
  ∀ (op : TestOpcode) (c : Cond) (rn : RegNum) (o : Operand2) (s : State),
    Runs (op.row c rn o) s → s.pc < 0xFFFFFFFC#32 →
    ∃ t, exec (op.row c rn o) s = .next t ∧ s.dataFlags t op.base rn o ∧ t.pc = s.pc + 4#32 ∧
      OnlyChanges s t [] [] ∧ t.io = s.io

/-- The twelve with Rd = R15 and no S are jumps: PC takes the result with bits 1:0 cleared, the pipeline is refilled, CPSR and
every register stay (R149). -/
def Obligations.DataInstructionJumps : Prop :=
  ∀ (op : DataOpcode) (c : Cond) (rn : RegNum) (o : Operand2) (s : State), Runs (op.row c false rn pcNum o) s →
    ∃ t, exec (op.row c false rn pcNum o) s = .next t ∧ t.pc = s.dataResult op rn o &&& 0xFFFFFFFC#32 ∧ t.pipe = none ∧
      t.cpsr = s.cpsr ∧ OnlyChanges s t [] [] ∧ t.io = s.io

/-- The twelve with Rd = R15 and S return from an exception: CPSR takes the whole SPSR of the mode, PC the result with its low
bits cleared as the restored T says; in a mode without an SPSR, and with an illegal mode in the SPSR, the model faults (R148,
R226, R275). -/
def Obligations.DataInstructionReturns : Prop :=
  ∀ (op : DataOpcode) (c : Cond) (rn : RegNum) (o : Operand2) (s : State), Runs (op.row c true rn pcNum o) s →
    (∀ k, s.mode.spsrIdx = some k → legalMode (psrM s.spsr[k]) = true →
      ∃ t, exec (op.row c true rn pcNum o) s = .next t ∧ t.cpsr = s.spsr[k] ∧
        t.pc = s.dataResult op rn o &&& (if psrT s.spsr[k] then 0xFFFFFFFE#32 else 0xFFFFFFFC#32) ∧ t.pipe = none ∧
        SameRegs s t [] ∧ SameBytes s t [] ∧ SameSpsr s t [] ∧ SameWorld s t ∧ t.io = s.io) ∧
    (∀ k, s.mode.spsrIdx = some k → legalMode (psrM s.spsr[k]) = false →
      exec (op.row c true rn pcNum o) s = .fault .illegalMode) ∧
    (s.mode.spsrIdx = none → exec (op.row c true rn pcNum o) s = .fault .noSpsr)

/-- The immediate second operand: the constant rotated right by twice `rot`, and its carry-out (R144). -/
def Obligations.ImmediateOperand : Prop :=
  ∀ (rot : BitVec 4) (imm8 : BitVec 8) (s : State),
    (∀ i, i < 32 → bitAt (operand2 (.imm rot imm8) s).value i = imm8.getLsbD ((i + 2 * rot.toNat) % 32)) ∧
    (operand2 (.imm rot imm8) s).carry =
      (if rot = 0#4 then psrC s.cpsr else bitAt (operand2 (.imm rot imm8) s).value 31)

/-- The register operand shifted by a constant: value and carry-out, row by row of the table (R145). -/
def Obligations.ShiftByConstant : Prop :=
  ∀ (a : BitVec 5) (rm : RegNum) (s : State),
    (a = 0#5 →
      operand2 (.shImm a .lsl rm) s = ⟨s.reg rm, psrC s.cpsr⟩ ∧
      operand2 (.shImm a .lsr rm) s = ⟨0#32, bitAt (s.reg rm) 31⟩ ∧
      operand2 (.shImm a .asr rm) s = ⟨if bitAt (s.reg rm) 31 then 0xFFFFFFFF#32 else 0#32, bitAt (s.reg rm) 31⟩ ∧
      (∀ i, i < 31 → bitAt (operand2 (.shImm a .ror rm) s).value i = bitAt (s.reg rm) (i + 1)) ∧
      bitAt (operand2 (.shImm a .ror rm) s).value 31 = psrC s.cpsr ∧
      (operand2 (.shImm a .ror rm) s).carry = bitAt (s.reg rm) 0) ∧
    (a ≠ 0#5 →
      (operand2 (.shImm a .lsl rm) s).value.toNat = (s.reg rm).toNat * 2 ^ a.toNat % 2 ^ 32 ∧
      (operand2 (.shImm a .lsl rm) s).carry = bitAt (s.reg rm) (32 - a.toNat) ∧
      (operand2 (.shImm a .lsr rm) s).value.toNat = (s.reg rm).toNat / 2 ^ a.toNat ∧
      (operand2 (.shImm a .lsr rm) s).carry = bitAt (s.reg rm) (a.toNat - 1) ∧
      (operand2 (.shImm a .asr rm) s).value.toInt = (s.reg rm).toInt / 2 ^ a.toNat ∧
      (operand2 (.shImm a .asr rm) s).carry = bitAt (s.reg rm) (a.toNat - 1) ∧
      (∀ i, i < 32 → bitAt (operand2 (.shImm a .ror rm) s).value i = bitAt (s.reg rm) ((i + a.toNat) % 32)) ∧
      (operand2 (.shImm a .ror rm) s).carry = bitAt (s.reg rm) (a.toNat - 1))

/-- The register operand shifted by a register: value and carry-out for every amount 0 to 255 (R146). -/
def Obligations.ShiftByRegister : Prop :=
  ∀ (t : ShiftType) (rs rm : RegNum) (s : State) (a : Nat), a = (s.reg rs).toNat % 256 →
    (a = 0 → operand2 (.shReg rs t rm) s = ⟨s.reg rm, psrC s.cpsr⟩) ∧
    (0 < a → a < 32 →
      (t = .lsl → (operand2 (.shReg rs t rm) s).value.toNat = (s.reg rm).toNat * 2 ^ a % 2 ^ 32 ∧
        (operand2 (.shReg rs t rm) s).carry = bitAt (s.reg rm) (32 - a)) ∧
      (t = .lsr → (operand2 (.shReg rs t rm) s).value.toNat = (s.reg rm).toNat / 2 ^ a ∧
        (operand2 (.shReg rs t rm) s).carry = bitAt (s.reg rm) (a - 1)) ∧
      (t = .asr → (operand2 (.shReg rs t rm) s).value.toInt = (s.reg rm).toInt / 2 ^ a ∧
        (operand2 (.shReg rs t rm) s).carry = bitAt (s.reg rm) (a - 1))) ∧
    (a = 32 → t = .lsl → operand2 (.shReg rs t rm) s = ⟨0#32, bitAt (s.reg rm) 0⟩) ∧
    (a = 32 → t = .lsr → operand2 (.shReg rs t rm) s = ⟨0#32, bitAt (s.reg rm) 31⟩) ∧
    (32 < a → t = .lsl ∨ t = .lsr → operand2 (.shReg rs t rm) s = ⟨0#32, false⟩) ∧
    (32 ≤ a → t = .asr →
      operand2 (.shReg rs t rm) s = ⟨if bitAt (s.reg rm) 31 then 0xFFFFFFFF#32 else 0#32, bitAt (s.reg rm) 31⟩) ∧
    (0 < a → a % 32 = 0 → t = .ror → operand2 (.shReg rs t rm) s = ⟨s.reg rm, bitAt (s.reg rm) 31⟩) ∧
    (a % 32 ≠ 0 → t = .ror →
      (∀ i, i < 32 → bitAt (operand2 (.shReg rs t rm) s).value i = bitAt (s.reg rm) ((i + a) % 32)) ∧
      (operand2 (.shReg rs t rm) s).carry = bitAt (s.reg rm) (a % 32 - 1))

/-! Multiplication. -/

/-- MUL and MLA: the low 32 bits, with S N and Z (C is left open, V kept), nothing else (R241, R242, R247). -/
def Obligations.MultiplyResults : Prop :=
  ∀ (c : Cond) (sf : Bool) (rd rn rs rm : RegNum) (s : State), s.pc < 0xFFFFFFFC#32 →
    (Runs (.mul c sf rd rs rm) s →
      ∃ t, exec (.mul c sf rd rs rm) s = .next t ∧ t.pc = s.pc + 4#32 ∧ OnlyChanges s t [bank s.mode rd] [] ∧ t.io = s.io ∧
        (t.preg (bank s.mode rd)).toNat = (s.reg rm).toNat * (s.reg rs).toNat % 2 ^ 32 ∧
        (if sf then FlagsAre t (negative (t.preg (bank s.mode rd))) (t.preg (bank s.mode rd) == 0#32) (psrC t.cpsr) (psrV s.cpsr)
          else SameFlags s t)) ∧
    (Runs (.mla c sf rd rn rs rm) s →
      ∃ t, exec (.mla c sf rd rn rs rm) s = .next t ∧ t.pc = s.pc + 4#32 ∧ OnlyChanges s t [bank s.mode rd] [] ∧ t.io = s.io ∧
        (t.preg (bank s.mode rd)).toNat = ((s.reg rm).toNat * (s.reg rs).toNat + (s.reg rn).toNat) % 2 ^ 32 ∧
        (if sf then FlagsAre t (negative (t.preg (bank s.mode rd))) (t.preg (bank s.mode rd) == 0#32) (psrC t.cpsr) (psrV s.cpsr)
          else SameFlags s t))

/-- UMULL, UMLAL, SMULL, SMLAL: the 64-bit result in RdHi and RdLo, with S N and Z of all 64 bits (C and V are left open), nothing
else (R243 to R247). -/
def Obligations.LongMultiplyResults : Prop :=
  ∀ (c : Cond) (sf : Bool) (hi lo rs rm : RegNum) (s : State), s.pc < 0xFFFFFFFC#32 →
    ∀ (i : Instr) (p : Int),
      (i = .umull c sf hi lo rs rm ∧ p = (s.reg rm).toNat * (s.reg rs).toNat) ∨
      (i = .umlal c sf hi lo rs rm ∧ p = (s.reg rm).toNat * (s.reg rs).toNat + (s.reg hi ++ s.reg lo).toNat) ∨
      (i = .smull c sf hi lo rs rm ∧ p = (s.reg rm).toInt * (s.reg rs).toInt) ∨
      (i = .smlal c sf hi lo rs rm ∧ p = (s.reg rm).toInt * (s.reg rs).toInt + (s.reg hi ++ s.reg lo).toInt) →
      Runs i s →
      ∃ t, exec i s = .next t ∧ t.pc = s.pc + 4#32 ∧ OnlyChanges s t [bank s.mode hi, bank s.mode lo] [] ∧ t.io = s.io ∧
        ((t.preg (bank s.mode hi) ++ t.preg (bank s.mode lo)).toNat : Int) = p % 2 ^ 64 ∧
        (if sf then FlagsAre t (negative (t.preg (bank s.mode hi)))
            (t.preg (bank s.mode hi) == 0#32 && t.preg (bank s.mode lo) == 0#32) (psrC t.cpsr) (psrV t.cpsr)
          else SameFlags s t)

/-! Single transfers and swaps. -/

/-- The address of a transfer and the value written back, for every indexing form (R181, R182, R193); P = 0 with W = 1 in a halfword
or signed transfer is UNPREDICTABLE (R182) and transfers nothing (`UnpredictableOperandsRefused`). -/
def Obligations.TransferAddresses : Prop :=
  (∀ (ix : LsIndex) (u : Bool) (rn : RegNum) (o : LsOffset) (s : State),
    lsAddressing ix.p u ix.writesBack rn o s =
      ⟨if ix = .offset ∨ ix = .preIndexed then indexed u (s.reg rn) (lsOffset o s) else s.reg rn,
       if ix = .offset then none else some (indexed u (s.reg rn) (lsOffset o s))⟩) ∧
  (∀ (ix : HsIndex) (u : Bool) (rn : RegNum) (o : HsOffset) (s : State), ix ≠ .postIndexedW →
    hsAddressing ix u rn o s =
      ⟨if ix = .offset ∨ ix = .preIndexed then indexed u (s.reg rn) (hsOffset o s) else s.reg rn,
       if ix = .offset then none else some (indexed u (s.reg rn) (hsOffset o s))⟩) ∧
  (∀ (imm : BitVec 12) (s : State), (lsOffset (.imm imm) s).toNat = imm.toNat) ∧
  (∀ (a : BitVec 5) (t : ShiftType) (rm : RegNum) (s : State),
    lsOffset (.reg a t rm) s = (operand2 (.shImm a t rm) s).value) ∧
  (∀ (h l : BitVec 4) (s : State), (hsOffset (.imm h l) s).toNat = 16 * h.toNat + l.toNat) ∧
  (∀ (rm : RegNum) (s : State), hsOffset (.reg rm) s = s.reg rm)

/-- LDR and LDRT, every form, R15 as Rd included: the word at the aligned address, rotated right so that the addressed byte is
lowest; the base; nothing else (R64, R181, R184, R185, R193). The misaligned case is the model's setting MISALIGNED = arm7tdmi (log 6),
an access partly in a device range its choice (log 24). -/
def Obligations.LoadWordInstructions : Prop :=
  ∀ (c : Cond) (ix : LsIndex) (u : Bool) (rn rd : RegNum) (o : LsOffset) (s : State) (a : Addressing),
    a = lsAddressing ix.p u ix.writesBack rn o s → Runs (ldrRow c ix u rn rd o) s →
    s.accessExists (a.addr &&& 0xFFFFFFFC#32) .word = true → Follows s (rd == pcNum) →
    ∃ t, exec (ldrRow c ix u rn rd o) s = .next t ∧
      Loaded s t rn rd ix.writesBack a (a.addr &&& 0xFFFFFFFC#32) .word
        ((s.readValue (a.addr &&& 0xFFFFFFFC#32) .word).rotateRight (8 * (a.addr.toNat % 4)))

/-- LDRB and LDRBT, every form: the byte, zero-extended; the base; nothing else (R181, R187, R193; device answers
as in log 24). -/
def Obligations.LoadByteInstructions : Prop :=
  ∀ (c : Cond) (ix : LsIndex) (u : Bool) (rn rd : RegNum) (o : LsOffset) (s : State) (a : Addressing),
    a = lsAddressing ix.p u ix.writesBack rn o s → Runs (ldrbRow c ix u rn rd o) s →
    s.accessExists a.addr .byte = true → s.pc < 0xFFFFFFFC#32 →
    ∃ t, exec (ldrbRow c ix u rn rd o) s = .next t ∧
      Loaded s t rn rd ix.writesBack a a.addr .byte (s.readValue a.addr .byte)

/-- LDRH, LDRSH (at an even address) and LDRSB, every form: the halfword or byte, zero- or sign-extended; the base; nothing else
(R182, R189, R191, R192; device answers as in log 24). -/
def Obligations.LoadHalfAndSignedInstructions : Prop :=
  ∀ (c : Cond) (ix : HsIndex) (u : Bool) (rn rd : RegNum) (o : HsOffset) (s : State) (a : Addressing),
    a = hsAddressing ix u rn o s → s.pc < 0xFFFFFFFC#32 →
    (Runs (ldrhRow c ix u rn rd o) s → s.accessExists a.addr .half = true → bitAt a.addr 0 = false →
      ∃ t, exec (ldrhRow c ix u rn rd o) s = .next t ∧
        Loaded s t rn rd ix.writesBack a a.addr .half (s.readValue a.addr .half)) ∧
    (Runs (ldrshRow c ix u rn rd o) s → s.accessExists a.addr .half = true → bitAt a.addr 0 = false →
      ∃ t, exec (ldrshRow c ix u rn rd o) s = .next t ∧
        Loaded s t rn rd ix.writesBack a a.addr .half (((s.readValue a.addr .half).setWidth 16).signExtend 32)) ∧
    (Runs (ldrsbRow c ix u rn rd o) s → s.accessExists a.addr .byte = true →
      ∃ t, exec (ldrsbRow c ix u rn rd o) s = .next t ∧
        Loaded s t rn rd ix.writesBack a a.addr .byte (((s.readValue a.addr .byte).setWidth 8).signExtend 32))

/-- STR and STRT, every form: Rd's word, or the instruction's address plus 12 for R15, at the aligned address, not rotated; the
base; nothing else (R64, R181, R186, R193). The misaligned case is the model's setting MISALIGNED = arm7tdmi (log 6), the stored R15
its choice among R186's two (log 32). -/
def Obligations.StoreWordInstructions : Prop :=
  ∀ (c : Cond) (ix : LsIndex) (u : Bool) (rn rd : RegNum) (o : LsOffset) (s : State) (a : Addressing),
    a = lsAddressing ix.p u ix.writesBack rn o s → Runs (strRow c ix u rn rd o) s →
    s.accessExists (a.addr &&& 0xFFFFFFFC#32) .word = true → s.pc < 0xFFFFFFFC#32 →
    ∃ t, exec (strRow c ix u rn rd o) s = .next t ∧
      Stored s t rn ix.writesBack a (a.addr &&& 0xFFFFFFFC#32) .word (if rd = pcNum then s.pc + 12#32 else s.preg (bank s.mode rd))

/-- STRB and STRBT, every form, and STRH, every form at an even address: Rd's low byte or halfword; the base; nothing else (R181,
R182, R188, R190, R193; device writes as in log 24). -/
def Obligations.StoreNarrowInstructions : Prop :=
  (∀ (c : Cond) (ix : LsIndex) (u : Bool) (rn rd : RegNum) (o : LsOffset) (s : State) (a : Addressing),
    a = lsAddressing ix.p u ix.writesBack rn o s → Runs (strbRow c ix u rn rd o) s →
    s.accessExists a.addr .byte = true → s.pc < 0xFFFFFFFC#32 →
    ∃ t, exec (strbRow c ix u rn rd o) s = .next t ∧
      Stored s t rn ix.writesBack a a.addr .byte (s.preg (bank s.mode rd))) ∧
  (∀ (c : Cond) (ix : HsIndex) (u : Bool) (rn rd : RegNum) (o : HsOffset) (s : State) (a : Addressing),
    a = hsAddressing ix u rn o s → Runs (strhRow c ix u rn rd o) s →
    s.accessExists a.addr .half = true → bitAt a.addr 0 = false → s.pc < 0xFFFFFFFC#32 →
    ∃ t, exec (strhRow c ix u rn rd o) s = .next t ∧
      Stored s t rn ix.writesBack a a.addr .half (s.preg (bank s.mode rd)))

/-- LDRH, LDRSH and STRH at an odd address are refused (R64, R189 to R191). -/
def Obligations.OddHalfwordRefused : Prop :=
  ∀ (c : Cond) (ix : HsIndex) (u : Bool) (rn rd : RegNum) (o : HsOffset) (s : State) (i : Instr),
    i = ldrhRow c ix u rn rd o ∨ i = ldrshRow c ix u rn rd o ∨ i = strhRow c ix u rn rd o →
    Runs i s → bitAt (hsAddressing ix u rn o s).addr 0 = true → exec i s = .refused .oddHalfword

/-- A single transfer or swap of an address that does not exist enters Data Abort: Rd and memory keep their contents, the base is
written back exactly when the form writes it back and ABORT_BASE is `updated` (R71, R183, R198, R263; a misaligned word by the setting
of log 6). -/
def Obligations.TransfersAbort : Prop :=
  (∀ (c : Cond) (ix : LsIndex) (u : Bool) (rn rd : RegNum) (o : LsOffset) (s : State) (a : Addressing) (i : Instr),
    a = lsAddressing ix.p u ix.writesBack rn o s → Runs i s →
    ((i = ldrRow c ix u rn rd o ∨ i = strRow c ix u rn rd o) ∧ s.accessExists (a.addr &&& 0xFFFFFFFC#32) .word = false) ∨
    ((i = ldrbRow c ix u rn rd o ∨ i = strbRow c ix u rn rd o) ∧ s.accessExists a.addr .byte = false) →
    ∃ t, exec i s = .next t ∧ Aborted s t rn ix.writesBack a ∧ t.io = s.io) ∧
  (∀ (c : Cond) (ix : HsIndex) (u : Bool) (rn rd : RegNum) (o : HsOffset) (s : State) (a : Addressing) (i : Instr),
    a = hsAddressing ix u rn o s → Runs i s →
    ((i = ldrhRow c ix u rn rd o ∨ i = ldrshRow c ix u rn rd o ∨ i = strhRow c ix u rn rd o) ∧
      bitAt a.addr 0 = false ∧ s.accessExists a.addr .half = false) ∨
    (i = ldrsbRow c ix u rn rd o ∧ s.accessExists a.addr .byte = false) →
    ∃ t, exec i s = .next t ∧ Aborted s t rn ix.writesBack a ∧ t.io = s.io) ∧
  (∀ (c : Cond) (rn rd rm : RegNum) (s : State) (i : Instr), Runs i s →
    (i = .swp c rn rd rm ∧ s.accessExists (s.reg rn &&& 0xFFFFFFFC#32) .word = false) ∨
    (i = .swpb c rn rd rm ∧ s.accessExists (s.reg rn) .byte = false) →
    ∃ t, exec i s = .next t ∧ Entered s t .dataAbort [] [] ∧ t.io = s.io)

/-- SWP and SWPB: Rd takes the old contents (a word rotated as LDR does), then memory takes Rm's word or byte, nothing else; on a device
range the device is read, then written, and Rd takes its answer (R64, R69, R76, R198). The misaligned word is the model's setting
MISALIGNED = arm7tdmi (log 6), device accesses as in log 24. -/
def Obligations.SwapInstructions : Prop :=
  ∀ (c : Cond) (rn rd rm : RegNum) (s : State), s.pc < 0xFFFFFFFC#32 →
    (∀ a, a = s.reg rn &&& 0xFFFFFFFC#32 → Runs (.swp c rn rd rm) s → s.accessExists a .word = true →
      ∃ t, exec (.swp c rn rd rm) s = .next t ∧ t.pc = s.pc + 4#32 ∧
        t.preg (bank s.mode rd) = (s.readValue a .word).rotateRight (8 * ((s.reg rn).toNat % 4)) ∧
        (if s.accessDevice a .word then SameBytes s t [] ∧ t.io = .write a .word (s.reg rm) :: .read a .word :: s.io
          else StoredAt s t a .word (s.reg rm)) ∧
        OnlyChanges s t [bank s.mode rd] (accessAddrs a .word) ∧ SameFlags s t) ∧
    (∀ a, a = s.reg rn → Runs (.swpb c rn rd rm) s → s.accessExists a .byte = true →
      ∃ t, exec (.swpb c rn rd rm) s = .next t ∧ t.pc = s.pc + 4#32 ∧
        t.preg (bank s.mode rd) = s.readValue a .byte ∧
        (if s.accessDevice a .byte then SameBytes s t [] ∧ t.io = .write a .byte (s.reg rm &&& 0xFF#32) :: .read a .byte :: s.io
          else StoredAt s t a .byte (s.reg rm)) ∧
        OnlyChanges s t [bank s.mode rd] (accessAddrs a .byte) ∧ SameFlags s t)

/-! Branches. -/

/-- B and BL: PC takes the instruction's address plus 8 plus four times the signed offset, modulo 2^32; BL also writes the address
of the instruction after it into R14 of the current mode; nothing else (R25, R131, R132). A branch past 0xFFFFFFFC is refused, as U14
and D19 say; that U14 is followed there and R131's modulo below address 0 is the model's reading, log 18. -/
def Obligations.Branches : Prop :=
  ∀ (c : Cond) (imm24 : BitVec 24) (s : State) (target : Int), target = (s.pc.toNat : Int) + 8 + 4 * imm24.toInt →
    (Runs (.b c imm24) s → target < 2 ^ 32 →
      ∃ t, exec (.b c imm24) s = .next t ∧ (t.pc.toNat : Int) = target % 2 ^ 32 ∧
        t.pipe = none ∧ t.cpsr = s.cpsr ∧ OnlyChanges s t [] [] ∧ t.io = s.io) ∧
    (Runs (.bl c imm24) s → target < 2 ^ 32 →
      ∃ t, exec (.bl c imm24) s = .next t ∧ (t.pc.toNat : Int) = target % 2 ^ 32 ∧
        t.preg (bank s.mode 14#4) = s.pc + 4#32 ∧ t.pipe = none ∧ t.cpsr = s.cpsr ∧
        OnlyChanges s t [bank s.mode 14#4] [] ∧ t.io = s.io) ∧
    (Runs (.b c imm24) s → 2 ^ 32 ≤ target → exec (.b c imm24) s = .refused .pcWrap) ∧
    (Runs (.bl c imm24) s → 2 ^ 32 ≤ target → exec (.bl c imm24) s = .refused .pcWrap)

/-- BX: T takes bit 0 of the register, PC the rest, bit 0 cleared; bits 1:0 = 10 are refused (R134). -/
def Obligations.BranchExchange : Prop :=
  ∀ (c : Cond) (rm : RegNum) (s : State), Runs (.bx c rm) s →
    (field (s.reg rm) 0 2 ≠ 0b10#2 →
      ∃ t, exec (.bx c rm) s = .next t ∧ psrT t.cpsr = bitAt (s.reg rm) 0 ∧ t.pc = s.reg rm &&& 0xFFFFFFFE#32 ∧
        t.pipe = none ∧ SameFlags s t ∧ psrM t.cpsr = psrM s.cpsr ∧ psrI t.cpsr = psrI s.cpsr ∧ psrF t.cpsr = psrF s.cpsr ∧
        field t.cpsr 8 20 = field s.cpsr 8 20 ∧ SameRegs s t [] ∧ SameBytes s t [] ∧ SameSpsr s t [] ∧ SameWorld s t ∧
        t.io = s.io) ∧
    (field (s.reg rm) 0 2 = 0b10#2 → exec (.bx c rm) s = .refused .bxTarget)

/-! Status registers. -/

/-- MRS: Rd takes the named fields of CPSR, in every mode, or of the mode's SPSR (bits 27:8 are left open); nothing else (R35,
R221). Naming SPSR in User or System mode faults (R224). -/
def Obligations.ReadStatusRegister : Prop :=
  ∀ (c : Cond) (spsr : Bool) (rd : RegNum) (s : State), Runs (.mrs c spsr rd) s →
    (∀ w, (spsr = false ∧ w = s.cpsr) ∨ (spsr = true ∧ s.currentSpsr = some w) → s.pc < 0xFFFFFFFC#32 →
      ∃ t, exec (.mrs c spsr rd) s = .next t ∧
        field (t.preg (bank s.mode rd)) 0 8 = field w 0 8 ∧ field (t.preg (bank s.mode rd)) 28 4 = field w 28 4 ∧
        t.pc = s.pc + 4#32 ∧ t.cpsr = s.cpsr ∧ OnlyChanges s t [bank s.mode rd] [] ∧ t.io = s.io) ∧
    (spsr = true → s.mode = .usr ∨ s.mode = .sys → exec (.mrs c spsr rd) s = .fault .noSpsr)

/-- MSR to CPSR in a privileged mode, both rows: the named bytes take the operand's bits, except bits 27:8, which ignore writes;
it completes when T keeps its value and M, if named, gets a legal one; nothing else changes, no register moves between banks
(R23, R35, R222; an empty field mask writes nothing, log 26). -/
def Obligations.WriteCpsrPrivileged : Prop :=
  ∀ (c : Cond) (mask : BitVec 4) (v : Word) (s : State) (i : Instr), MsrRow c false mask v s i → Runs i s →
    s.mode ≠ .usr → (mask.getLsbD 0 = true → psrT s.cpsr = bitAt v 5 ∧ legalMode (field v 0 5) = true) →
    s.pc < 0xFFFFFFFC#32 →
    ∃ t, exec i s = .next t ∧
      (∀ b, b < 32 → bitAt t.cpsr b = if mask.getLsbD (b / 8) ∧ (b < 8 ∨ 28 ≤ b) then bitAt v b else bitAt s.cpsr b) ∧
      t.pc = s.pc + 4#32 ∧ SameRegs s t [] ∧ SameBytes s t [] ∧ SameSpsr s t [] ∧ SameWorld s t ∧ t.io = s.io

/-- MSR to CPSR in User mode, both rows: only N, Z, C, V can change, and only if the flags byte is named; I, F, T, M are ignored
silently (R223; an empty field mask, log 26). -/
def Obligations.WriteCpsrUser : Prop :=
  ∀ (c : Cond) (mask : BitVec 4) (v : Word) (s : State) (i : Instr), MsrRow c false mask v s i → Runs i s →
    s.mode = .usr → s.pc < 0xFFFFFFFC#32 →
    ∃ t, exec i s = .next t ∧ field t.cpsr 28 4 = (if mask.getLsbD 3 then field v 28 4 else field s.cpsr 28 4) ∧
      t.pc = s.pc + 4#32 ∧ OnlyChanges s t [] [] ∧ t.io = s.io

/-- MSR to SPSR, both rows, in a mode that has one: the named bytes take the operand's bits, except bits 27:8; any mode value is
accepted; nothing else changes. In User and System mode it faults (R35, R222, R224; an empty field mask, log 26). -/
def Obligations.WriteSpsr : Prop :=
  ∀ (c : Cond) (mask : BitVec 4) (v : Word) (s : State) (i : Instr), MsrRow c true mask v s i → Runs i s →
    (∀ k, s.mode.spsrIdx = some k → s.pc < 0xFFFFFFFC#32 →
      ∃ t, exec i s = .next t ∧
        (∀ b, b < 32 →
          bitAt t.spsr[k] b = if mask.getLsbD (b / 8) ∧ (b < 8 ∨ 28 ≤ b) then bitAt v b else bitAt s.spsr[k] b) ∧
        SameSpsr s t [k] ∧ t.cpsr = s.cpsr ∧ t.pc = s.pc + 4#32 ∧ SameRegs s t [] ∧ SameBytes s t [] ∧ SameWorld s t ∧
        t.io = s.io) ∧
    (s.mode = .usr ∨ s.mode = .sys → exec i s = .fault .noSpsr)

/-- MSR to CPSR in a privileged mode faults when it would change T, and otherwise when it would write an illegal mode (R225,
R226). -/
def Obligations.WriteCpsrFaults : Prop :=
  ∀ (c : Cond) (mask : BitVec 4) (v : Word) (s : State) (i : Instr), MsrRow c false mask v s i → Runs i s →
    s.mode ≠ .usr → mask.getLsbD 0 = true →
    (psrT s.cpsr ≠ bitAt v 5 → exec i s = .fault .psrThumbBit) ∧
    (psrT s.cpsr = bitAt v 5 → legalMode (field v 0 5) = false → exec i s = .fault .illegalMode)

/-! Instructions that trap. -/

/-- SWI enters Software Interrupt, whatever its number (R99, R231, R256, R261). -/
def Obligations.SoftwareInterrupt : Prop :=
  ∀ (c : Cond) (imm24 : BitVec 24) (s : State), Runs (.swi c imm24) s →
    ∃ t, exec (.swi c imm24) s = .next t ∧ Entered s t .swi [] [] ∧ t.io = s.io

/-- UNDEFINED, LDC, STC, CDP, MCR, MRC enter Undefined Instruction, whatever their fields (R105, R232, R233, R256, R262). -/
def Obligations.UndefinedInstructions : Prop :=
  ∀ (s : State) (i : Instr), Runs i s →
    (∃ c hi lo, i = .undefined c hi lo) ∨ (∃ c p u n w rn crd cp off8, i = .ldc c p u n w rn crd cp off8) ∨
    (∃ c p u n w rn crd cp off8, i = .stc c p u n w rn crd cp off8) ∨
    (∃ c op1 crn crd cp op2 crm, i = .cdp c op1 crn crd cp op2 crm) ∨
    (∃ c op1 crn rd cp op2 crm, i = .mcr c op1 crn rd cp op2 crm) ∨
    (∃ c op1 crn rd cp op2 crm, i = .mrc c op1 crn rd cp op2 crm) →
    ∃ t, exec i s = .next t ∧ Entered s t .undefined [] [] ∧ t.io = s.io

/-! Block transfers. -/

/-- The registers of a list, lowest first; the ascending word-aligned addresses of a block transfer; the value written back
(R64, R211, R212; the ignored low address bits are the setting MISALIGNED = arm7tdmi, log 6). -/
def Obligations.BlockAddresses : Prop :=
  (∀ (list : BitVec 16) (i : RegNum), i ∈ regList list ↔ list.getLsbD i.toNat = true) ∧
  (∀ list : BitVec 16, (regList list).Pairwise fun i j => i.toNat < j.toNat) ∧
  (∀ (p u w : Bool) (rn : RegNum) (list : BitVec 16) (s : State) (cnt : Nat), cnt = (regList list).length →
    (blockTargets p u w rn list s).length = cnt ∧
    (∀ k, k < cnt → (blockTargets p u w rn list s)[k]? =
      some ((blockLowest p u (s.reg rn) cnt + BitVec.ofNat 32 (4 * k)) &&& 0xFFFFFFFC#32)) ∧
    (blockAddressing p u w rn list s).writeback =
      (if w then some (if u then s.reg rn + BitVec.ofNat 32 (4 * cnt) else s.reg rn - BitVec.ofNat 32 (4 * cnt)) else none))

/-- LDM without ^: each listed register takes its word, R15 is a jump to its word with bits 1:0 cleared; the base; nothing else
(R211, R213, R214; misaligned addresses by the setting of log 6, device answers as in log 24). -/
def Obligations.LoadMultiple : Prop :=
  ∀ (c : Cond) (p u w : Bool) (rn : RegNum) (list : BitVec 16) (s : State), Runs (.ldm c p u false w rn list) s →
    AllExist s (blockTargets p u w rn list s) → Follows s (list.getLsbD 15) →
    ∃ t vals, exec (.ldm c p u false w rn list) s = .next t ∧ BlockRead s (blockTargets p u w rn list s) vals t.io ∧
      ListLoaded t s.mode list vals ∧
      (if list.getLsbD 15 then (∃ v, vals.getLast? = some v ∧ t.pc = v &&& 0xFFFFFFFC#32) ∧ t.pipe = none
        else t.pc = s.pc + 4#32) ∧
      BaseWritten s t rn (blockAddressing p u w rn list s) ∧
      OnlyChanges s t (listedRegs s.mode list ++ baseRegs s.mode rn w) [] ∧ SameFlags s t

/-- LDM with ^ and no R15, in a mode that has an SPSR: the User bank is loaded, the base is untouched, and the User-bank hazard
begins (R215(b), R310(c)). In User and System mode it is refused, as STM with ^ is; LDM with ^ and R15 faults there (R215). -/
def Obligations.LoadMultipleUserBank : Prop :=
  ∀ (c : Cond) (p u w : Bool) (rn : RegNum) (list : BitVec 16) (s : State),
    (Runs (.ldm c p u true w rn list) s → list.getLsbD 15 = false → s.mode ≠ .usr → s.mode ≠ .sys →
      AllExist s (blockTargets p u w rn list s) → s.pc < 0xFFFFFFFC#32 →
      ∃ t vals, exec (.ldm c p u true w rn list) s = .next t ∧ BlockRead s (blockTargets p u w rn list s) vals t.io ∧
        ListLoaded t .usr list vals ∧ t.pc = s.pc + 4#32 ∧ t.bankHazard = true ∧
        OnlyChanges s t (listedRegs .usr list) [] ∧ SameFlags s t) ∧
    (s.mode = .usr ∨ s.mode = .sys →
      (Runs (.ldm c p u true w rn list) s → list.getLsbD 15 = false →
        exec (.ldm c p u true w rn list) s = .refused .userBankUnprivileged) ∧
      (Runs (.ldm c p u true w rn list) s → list.getLsbD 15 = true → exec (.ldm c p u true w rn list) s = .fault .noSpsr) ∧
      (Runs (.stm c p u true w rn list) s → exec (.stm c p u true w rn list) s = .refused .userBankUnprivileged))

/-- LDM with ^ and R15, in a mode that has an SPSR: the listed registers of that mode and its base are loaded, then CPSR takes the
whole SPSR and PC the last word; an illegal mode in the SPSR faults (R215(a), R226, R275). With T = 1 in the SPSR PC keeps bit 1:
the model's deduction from R148, log 21. -/
def Obligations.LoadMultipleReturns : Prop :=
  ∀ (c : Cond) (p u w : Bool) (rn : RegNum) (list : BitVec 16) (s : State) (k : SpsrIdx),
    Runs (.ldm c p u true w rn list) s → list.getLsbD 15 = true → s.mode.spsrIdx = some k →
    AllExist s (blockTargets p u w rn list s) →
    (legalMode (psrM s.spsr[k]) = true →
      ∃ t vals v, exec (.ldm c p u true w rn list) s = .next t ∧ BlockRead s (blockTargets p u w rn list s) vals t.io ∧
        ListLoaded t s.mode list vals ∧ BaseWritten s t rn (blockAddressing p u w rn list s) ∧
        t.cpsr = s.spsr[k] ∧ vals.getLast? = some v ∧
        t.pc = v &&& (if psrT s.spsr[k] then 0xFFFFFFFE#32 else 0xFFFFFFFC#32) ∧ t.pipe = none ∧
        SameRegs s t (listedRegs s.mode list ++ baseRegs s.mode rn w) ∧ SameBytes s t [] ∧ SameSpsr s t [] ∧
        SameWorld s t) ∧
    (legalMode (psrM s.spsr[k]) = false → exec (.ldm c p u true w rn list) s = .fault .illegalMode)

/-- LDM of an address that does not exist enters Data Abort: memory is unchanged, the listed registers but the base and R15 are left
open, the base is written back exactly when W is set and ABORT_BASE is `updated` (R183, R217(e); the open registers are the model's
reading, log 27). -/
def Obligations.LoadMultipleAborts : Prop :=
  ∀ (c : Cond) (p u sf w : Bool) (rn : RegNum) (list : BitVec 16) (s : State), Runs (.ldm c p u sf w rn list) s →
    (sf = true → s.mode ≠ .usr ∧ s.mode ≠ .sys) → ¬ AllExist s (blockTargets p u w rn list s) →
    ∃ t, exec (.ldm c p u sf w rn list) s = .next t ∧
      Entered s t .dataAbort (listedRegs (if sf && !list.getLsbD 15 then .usr else s.mode) list ++ baseRegs s.mode rn w) [] ∧
      (bank s.mode rn ≠ bank .abt 14#4 →
        t.preg (bank s.mode rn) =
          (if s.platform.abortBaseUpdated then ((blockAddressing p u w rn list s).writeback).getD (s.preg (bank s.mode rn))
            else s.preg (bank s.mode rn)))

/-- STM, with and without ^: the word of each listed register (of the User bank with ^; the instruction's address plus 12 for
R15) at its address; the base; nothing else (R211, R215(c), R216; R15 with ^ as without, log 32; misaligned addresses, log 6). -/
def Obligations.StoreMultiple : Prop :=
  ∀ (c : Cond) (p u sf w : Bool) (rn : RegNum) (list : BitVec 16) (s : State), Runs (.stm c p u sf w rn list) s →
    (sf = true → s.mode ≠ .usr ∧ s.mode ≠ .sys) → AllExist s (blockTargets p u w rn list s) → s.pc < 0xFFFFFFFC#32 →
    ∃ t, exec (.stm c p u sf w rn list) s = .next t ∧ t.pc = s.pc + 4#32 ∧
      (∀ (k : Nat) (i : RegNum) (a : Word), (regList list)[k]? = some i → (blockTargets p u w rn list s)[k]? = some a →
        WordStored s t a (s.blockValue sf i)) ∧
      BaseWritten s t rn (blockAddressing p u w rn list s) ∧
      OnlyChanges s t (baseRegs s.mode rn w) (blockBytes (blockTargets p u w rn list s)) ∧ SameFlags s t ∧
      ((∀ a ∈ blockTargets p u w rn list s, s.accessDevice a .word = false) → t.io = s.io)

/-- STM of an address that does not exist enters Data Abort: the words before the first such address are in memory, no byte from
there on is written, the base is written back exactly when W is set and ABORT_BASE is `updated` (R183, R217(e); R15 with ^, log 32). -/
def Obligations.StoreMultipleAborts : Prop :=
  ∀ (c : Cond) (p u sf w : Bool) (rn : RegNum) (list : BitVec 16) (s : State), Runs (.stm c p u sf w rn list) s →
    (sf = true → s.mode ≠ .usr ∧ s.mode ≠ .sys) → ¬ AllExist s (blockTargets p u w rn list s) →
    ∃ t, exec (.stm c p u sf w rn list) s = .next t ∧
      Entered s t .dataAbort (if s.platform.abortBaseUpdated then baseRegs s.mode rn w else [])
        (blockBytes (blockTargets p u w rn list s)) ∧
      (s.platform.abortBaseUpdated = true → bank s.mode rn ≠ bank .abt 14#4 →
        BaseWritten s t rn (blockAddressing p u w rn list s)) ∧
      (∀ (k : Nat) (i : RegNum) (a : Word), (regList list)[k]? = some i → (blockTargets p u w rn list s)[k]? = some a →
        if (∀ b ∈ (blockTargets p u w rn list s).take (k + 1), s.accessExists b .word = true)
          then WordStored s t a (s.blockValue sf i)
          else ∀ j, j < 4 → t.mem.read (byteAddr a j) = s.mem.read (byteAddr a j))

/-! Exceptions. -/

/-- The vectors, modes and link offsets of Tab. 3, in ARM state and in THUMB state (R251, R252). -/
def Obligations.ExceptionTable : Prop :=
  (Exc.vector .reset = 0x00#32 ∧ Exc.mode .reset = .svc) ∧
  (Exc.vector .undefined = 0x04#32 ∧ Exc.mode .undefined = .und ∧ Exc.linkOffset false .undefined = 4#32 ∧
    Exc.linkOffset true .undefined = 2#32) ∧
  (Exc.vector .swi = 0x08#32 ∧ Exc.mode .swi = .svc ∧ Exc.linkOffset false .swi = 4#32 ∧ Exc.linkOffset true .swi = 2#32) ∧
  (Exc.vector .prefetchAbort = 0x0C#32 ∧ Exc.mode .prefetchAbort = .abt ∧ Exc.linkOffset false .prefetchAbort = 4#32 ∧
    Exc.linkOffset true .prefetchAbort = 4#32) ∧
  (Exc.vector .dataAbort = 0x10#32 ∧ Exc.mode .dataAbort = .abt ∧ Exc.linkOffset false .dataAbort = 8#32 ∧
    Exc.linkOffset true .dataAbort = 8#32) ∧
  (Exc.vector .irq = 0x18#32 ∧ Exc.mode .irq = .irq ∧ Exc.linkOffset false .irq = 4#32 ∧ Exc.linkOffset true .irq = 4#32) ∧
  (Exc.vector .fiq = 0x1C#32 ∧ Exc.mode .fiq = .fiq ∧ Exc.linkOffset false .fiq = 4#32 ∧ Exc.linkOffset true .fiq = 4#32)

/-- Taking any exception but Reset: the link value into R14 of the new mode, CPSR into its SPSR, M, T = 0, I = 1, F as R257 says, PC
at the vector; the flags, every other register, every other SPSR and memory unchanged (R256 to R258). -/
def Obligations.TakingAnException : Prop :=
  ∀ (s : State) (e : Exc), e ≠ .reset → Entered s (s.takeException e) e [] []

/-- The return instruction Tab. 3 gives for each exception, run at once in the handler, resumes where R276 says, in the state of
before: the same CPSR and every register but R14 of the exception's mode (R251, R275, R276). -/
def Obligations.ReturnsResume : Prop :=
  ∀ (s : State) (e : Exc) (i : Instr) (resume : Word),
    (e = .undefined ∧ i = .movShImm .al true pcNum 0#5 .lsl 14#4 ∧ resume = s.pc + (if s.thumb then 2#32 else 4#32)) ∨
    (e = .swi ∧ i = .movShImm .al true pcNum 0#5 .lsl 14#4 ∧ resume = s.pc + (if s.thumb then 2#32 else 4#32)) ∨
    (e = .prefetchAbort ∧ i = .subImm .al true 14#4 pcNum 0#4 4#8 ∧ resume = s.pc) ∨
    (e = .dataAbort ∧ i = .subImm .al true 14#4 pcNum 0#4 8#8 ∧ resume = s.pc) ∨
    (e = .irq ∧ i = .subImm .al true 14#4 pcNum 0#4 4#8 ∧ resume = s.pc) ∨
    (e = .fiq ∧ i = .subImm .al true 14#4 pcNum 0#4 4#8 ∧ resume = s.pc) →
    legalMode (psrM s.cpsr) = true → (if s.thumb then bitAt s.pc 0 = false else field s.pc 0 2 = 0#2) →
    ∃ t, exec i (s.takeException e) = .next t ∧ t.pc = resume ∧ t.cpsr = s.cpsr ∧
      SameRegs s t [bank e.mode 14#4] ∧ SameBytes s t [] ∧ SameSpsr s t (spsrsOf e.mode) ∧ SameWorld s t

/-! The step. -/

/-- With nothing pending, in ARM state, a step runs the instruction that the next word decodes to, on the state with one input used
up, the hazard mark cleared and the two following words fetched ahead. -/
def Obligations.StepRunsDecodedInstruction : Prop :=
  ∀ (s : State) (w : Word) (i : Instr), pendingException s = none → s.thumb = false → s.nextWord w →
    decodeWord w = .ok i → breaksHazard i s = false →
    step s = exec i (fetchNext s.beginStep).2 ∧ SameCore s (fetchNext s.beginStep).2 ∧
      (fetchNext s.beginStep).2.inputs = s.inputs.tail ∧ (fetchNext s.beginStep).2.bankHazard = false ∧
      (fetchNext s.beginStep).2.pipe.isSome = true

/-- The word of any instruction, placed at an existing memory address in PC, is run by the next step. -/
def Obligations.PlacedInstructionRuns : Prop :=
  ∀ (s : State) (i : Instr), pendingException s = none → s.thumb = false → s.bankHazard = false →
    s.accessExists s.pc .word = true → s.accessDevice s.pc .word = false →
    step (s.withFetchWord 32 (encode i).toNat) = exec i (fetchNext (s.withFetchWord 32 (encode i).toNat).beginStep).2

/-- The two words fetched ahead are run whatever memory has come to hold; after a jump the words at PC, PC + 4 and PC + 8 are fetched
from memory (R40, R62, R73). R73 and D7 let a model refuse self-modified code or keep this window: keeping it is the model's choice,
log 9, which also names its order of the three fetches. -/
def Obligations.FetchWindow : Prop :=
  (∀ (s : State) (p : Pipeline) (m : Memory), s.pipe = some p →
    (fetchNext (s.setMem m)).1 = p.first ∧ ∃ f, (fetchNext (s.setMem m)).2.pipe = some ⟨p.second, f⟩) ∧
  (∀ s : State, s.pipe = none →
    (∀ k : Fin 3, s.accessExists (s.pc + BitVec.ofNat 32 (4 * k)) .word = true ∧
      s.accessDevice (s.pc + BitVec.ofNat 32 (4 * k)) .word = false) →
    fetchNext s = (.word (s.mem.readSize s.pc .word),
      s.setPipe (some ⟨.word (s.mem.readSize (s.pc + 4#32) .word), .word (s.mem.readSize (s.pc + 8#32) .word)⟩)))

/-- Every step uses up one input and keeps the parameters of R5; it goes on to the next word, which lies below the
top of the address space, with the fetched words kept, or it has written PC and the pipeline is refilled (R28, R29, R73, R266; the list of
inputs is the model's form, log 10). -/
def Obligations.StepsFollowOrRefill : Prop :=
  ∀ s t : State, step s = .next t → t.inputs = s.inputs.tail ∧ t.platform = s.platform ∧
    (t.pipe = none ∨ (s.pc < 0xFFFFFFFC#32 ∧ t.pc = s.pc + 4#32 ∧ t.pipe = (fetchNext s.beginStep).2.pipe))

/-- A fetch that aborted enters Prefetch Abort when it reaches execution, whatever was to be run (R62, R71, R264). -/
def Obligations.PrefetchAborts : Prop :=
  ∀ s : State, pendingException s = none → s.thumb = false →
    (∃ f, s.pipe = some ⟨.aborted, f⟩) ∨ (s.pipe = none ∧ s.accessExists s.pc .word = false) →
    ∃ t, step s = .next t ∧ Entered s.beginStep t .prefetchAbort [] []

/-- At a boundary, in order of priority: Reset; FIQ if F = 0; IRQ if I = 0; a masked request waits (R32, R260, R265, R266, R270). That
a reset keeps memory and the board's parameters is the model's choice (log 11), the list of requests its form (log 10). -/
def Obligations.BoundaryPriority : Prop :=
  ∀ s : State,
    (s.input.reset = true →
      ∃ t, step s = .next t ∧ t.pc = 0#32 ∧ t.pipe = none ∧ psrM t.cpsr = 0b10011#5 ∧ psrT t.cpsr = false ∧
        psrI t.cpsr = true ∧ psrF t.cpsr = true ∧ t.mem = s.mem ∧ t.platform = s.platform) ∧
    (s.input.reset = false → s.input.fiq = true → psrF s.cpsr = false →
      ∃ t, step s = .next t ∧ Entered s.beginStep t .fiq [] [] ∧ t.io = s.io) ∧
    (s.input.reset = false → (s.input.fiq = true → psrF s.cpsr = true) → s.input.irq = true → psrI s.cpsr = false →
      ∃ t, step s = .next t ∧ Entered s.beginStep t .irq [] [] ∧ t.io = s.io) ∧
    (s.input.reset = false → (s.input.fiq = true → psrF s.cpsr = true) → (s.input.irq = true → psrI s.cpsr = true) →
      pendingException s = none)

/-- Where a step or an instruction stops by name: past the top of the address space (R29; a failed condition, and a data instruction
that does not write PC), a banked register touched right after an LDM of the User bank, R14 by a trap that enters the current mode
among them (R310(c), U10, as log 20 reads it), THUMB state (R4, R8, logs 22 and 23), a word that is no instruction (R106 to
R110). -/
def Obligations.NamedRefusals : Prop :=
  (∀ (i : Instr) (s : State), condPassed i.cond s.cpsr = false → 0xFFFFFFFC#32 ≤ s.pc → exec i s = .refused .pcWrap) ∧
  (∀ (op : DataOpcode) (c : Cond) (sf : Bool) (rn rd : RegNum) (o : Operand2) (s : State), Runs (op.row c sf rn rd o) s →
    rd ≠ pcNum → 0xFFFFFFFC#32 ≤ s.pc → exec (op.row c sf rn rd o) s = .refused .pcWrap) ∧
  (∀ (op : TestOpcode) (c : Cond) (rn : RegNum) (o : Operand2) (s : State), Runs (op.row c rn o) s → 0xFFFFFFFC#32 ≤ s.pc →
    exec (op.row c rn o) s = .refused .pcWrap) ∧
  (∀ (s : State) (w : Word) (i : Instr), pendingException s = none → s.thumb = false → s.nextWord w →
    decodeWord w = .ok i → s.bankHazard = true → condPassed i.cond s.cpsr = true →
    (∃ r ∈ touchedRegs s.mode i, bankedIn s.mode r = true) → step s = .refused .userBankHazard) ∧
  (∀ s : State, pendingException s = none → s.thumb = true → s.accessExists s.pc .half = true →
    step s = .refused .thumbState) ∧
  (∀ (s : State) (w : Word) (e : DecodeError), pendingException s = none → s.thumb = false → s.nextWord w →
    decodeWord w = .error e → step s = .refused (.decode e))

/-! Reset, the invariant, and rules of the whole machine. -/

/-- What the spec gives of the state after reset: PC 0, Supervisor mode, I = F = 1, T = 0, nothing fetched (R45, R301, R302). -/
def Obligations.ResetState : Prop :=
  State.reset.pc = 0x00000000#32 ∧ psrM State.reset.cpsr = 0b10011#5 ∧ State.reset.mode = .svc ∧
  psrI State.reset.cpsr = true ∧ psrF State.reset.cpsr = true ∧ psrT State.reset.cpsr = false ∧ State.reset.pipe = none

/-- The invariant holds at reset (the reserved bits and memory by the model's choices, logs 3 and 4). -/
def Obligations.ResetHasInvariant : Prop := State.reset.Inv

/-- Every step keeps the invariant: memory canonical, PC aligned as the state needs, a legal mode, bits 27:8 of every status
register unwritten (R28, R34, R35, R65, R226). -/
def Obligations.StepKeepsInvariant : Prop := ∀ s t : State, s.Inv → step s = .next t → t.Inv

/-- From User mode a step stays in User mode with I, F, every SPSR and every banked register untouched, or it enters an exception
(R281, R282). -/
def Obligations.UserModeConfined : Prop :=
  ∀ s t : State, psrM s.cpsr = Mode.usr.bits → step s = .next t →
    (psrM t.cpsr = Mode.usr.bits ∧ psrI t.cpsr = psrI s.cpsr ∧ psrF t.cpsr = psrF s.cpsr ∧ t.spsr = s.spsr ∧
      ∀ p : PReg, 15 ≤ p.val → t.preg p = s.preg p) ∨
    (∃ e : Exc, psrM t.cpsr = e.mode.bits ∧ t.pc = e.vector ∧ psrI t.cpsr = true ∧ psrT t.cpsr = false ∧ t.pipe = none)

/-- An instruction that leaves ARM state is BX, or has copied the SPSR of its mode into CPSR; no other instruction sets T (R33,
R312). -/
def Obligations.ThumbOnlyByExchangeOrReturn : Prop :=
  ∀ (i : Instr) (s t : State), exec i s = .next t → psrT s.cpsr = false → psrT t.cpsr = true →
    (∃ c rm, i = .bx c rm) ∨ (∃ k, s.mode.spsrIdx = some k ∧ t.cpsr = s.spsr[k])

/-- Which register each number names in each mode: 30 registers below PC, each reached; two names are one register exactly when the
banking rule says so (R21, R22). -/
def Obligations.BankedRegisters : Prop :=
  (∀ p : PReg, ∃ (m : Mode) (i : RegNum), i ≠ pcNum ∧ bank m i = p) ∧
  (∀ (m m' : Mode) (i j : RegNum), i ≠ pcNum → j ≠ pcNum →
    (bank m i = bank m' j ↔ i = j ∧
      (i.toNat ≤ 7 ∨ (i.toNat ≤ 12 ∧ (m = .fiq ↔ m' = .fiq)) ∨
        m = m' ∨ ((m = .usr ∨ m = .sys) ∧ (m' = .usr ∨ m' = .sys)))))

/-- Memory is little-endian: a read of what was written gives its low bytes back; byte and halfword reads of a stored word give its
fields; every byte outside an access keeps its value (R60, R61, R63). -/
def Obligations.MemoryReadsBack : Prop :=
  ∀ (m : Memory) (a v : Word),
    (∀ n, (Memory.writeSize m a v n).readSize a n = v &&& sizeMask n) ∧
    (∀ k, k < 4 → (Memory.writeSize m a v .word).readSize (a + BitVec.ofNat 32 k) .byte = (field v (8 * k) 8).setWidth 32) ∧
    (∀ h, h < 2 →
      (Memory.writeSize m a v .word).readSize (a + BitVec.ofNat 32 (2 * h)) .half = (field v (16 * h) 16).setWidth 32) ∧
    (∀ (n : AccessSize) (b : Nat), b ∉ accessAddrs a n → (Memory.writeSize m a v n).read b = Memory.read m b)

/-- Memories in canonical form that read alike are equal (the model's choice, log 4). -/
def Obligations.CanonicalMemoriesAreEqual : Prop :=
  ∀ m m' : Memory, m.wf = true → m'.wf = true → (∀ a, Memory.read m a = Memory.read m' a) → m = m'
end

