-- ==== Sys2Proof/Laws/Arith.lean ====
section
/-! SUPPORT. The adder and the subtractions built on it, in plain arithmetic: result, carry, overflow (R7, R147). -/

namespace Sys2Proof.Machine

/-- Bit 31 is the sign. -/
theorem bitAt_31 (w : Word) : bitAt w 31 = negative w := by
  have := BitVec.msb_eq_toInt (x := w)
  rw [BitVec.msb_eq_getLsbD_last] at this
  simpa [bitAt, negative] using this

theorem toNat_complement (b : Word) : (~~~b).toNat = 2 ^ 32 - 1 - b.toNat := by simp [BitVec.toNat_not]

theorem toInt_complement (b : Word) : (~~~b).toInt = -b.toInt - 1 := by
  have h1 := BitVec.toInt_eq_toNat_cond b
  have h2 := BitVec.toInt_eq_toNat_cond (~~~b)
  have h3 := toNat_complement b
  have := b.isLt
  split at h1 <;> split at h2 <;> omega

theorem addWithCarry_value (a b : Word) (c : Bool) : (addWithCarry a b c).1 = a + b + carryWord c := by
  apply BitVec.eq_of_toNat_eq
  cases c <;> simp [addWithCarry, carryWord, BitVec.toNat_add]

theorem addWithCarry_overflow (a b : Word) (c : Bool) :
    (addWithCarry a b c).2.2 = outOfRange (a.toInt + b.toInt + (c.toNat : Int)) := by
  simp [addWithCarry, outOfRange]

theorem add_complement (a b : Word) (c : Bool) : a + ~~~b + carryWord c = a - b - carryWord (!c) := by
  have h : a + ~~~b + 1#32 = a - b := by
    apply BitVec.eq_of_toNat_eq
    have := a.isLt
    have := b.isLt
    simp only [BitVec.toNat_add, toNat_complement, BitVec.toNat_sub, BitVec.toNat_ofNat]
    omega
  cases c
  · simp only [carryWord, Bool.false_eq_true, if_false, Bool.not_false, if_true]
    rw [← h]; simp
  · simp only [carryWord, if_true, Bool.not_true, Bool.false_eq_true, if_false, BitVec.sub_zero]
    exact h

/-- A sum with its flags. -/
theorem arithResult_eq (a b : Word) (c : Bool) : arithResult a b c =
    ⟨a + b + carryWord c, negative (a + b + carryWord c), a + b + carryWord c == 0#32,
      decide (2 ^ 32 ≤ a.toNat + b.toNat + c.toNat), outOfRange (a.toInt + b.toInt + (c.toNat : Int))⟩ := by
  have hc : (addWithCarry a b c).2.1 = decide (2 ^ 32 ≤ a.toNat + b.toNat + c.toNat) := rfl
  simp only [arithResult, addWithCarry_value, hc, addWithCarry_overflow, bitAt_31]

/-- A difference with its flags: the carry is "no borrow". -/
theorem arithResult_complement (a b : Word) (c : Bool) : arithResult a (~~~b) c =
    ⟨a - b - carryWord (!c), negative (a - b - carryWord (!c)), a - b - carryWord (!c) == 0#32,
      decide (b.toNat + (!c).toNat ≤ a.toNat), outOfRange (a.toInt - b.toInt - ((!c).toNat : Int))⟩ := by
  have hc : decide (2 ^ 32 ≤ a.toNat + (~~~b).toNat + c.toNat) = decide (b.toNat + (!c).toNat ≤ a.toNat) := by
    have := a.isLt
    have := b.isLt
    rw [toNat_complement]
    cases c <;> simp <;> omega
  have hv : a.toInt + (~~~b).toInt + (c.toNat : Int) = a.toInt - b.toInt - ((!c).toNat : Int) := by
    rw [toInt_complement]; cases c <;> simp <;> omega
  simp only [arithResult_eq, add_complement, hc, hv]

end Sys2Proof.Machine
end

