-- ==== Sys2Proof/Laws/Decode.lean ====
section
/-! SUPPORT. The bits of a word written field by field: what `field` and `bitAt` read back from `Word.push`; and the codes of
conditions, shifts and indexing forms read back. -/

namespace Sys2Proof

/-- A bit of the field just pushed. -/
theorem bitAt_push_low {n : Nat} (w : Word) (v : BitVec n) {i : Nat} (h : i < n) (h2 : i < 32) :
    bitAt (w.push v) i = v.getLsbD i := by
  simp [bitAt, Word.push, h, h2]

/-- A bit above the field just pushed. -/
theorem bitAt_push_high {n : Nat} (w : Word) (v : BitVec n) {i : Nat} (h : n ≤ i) (h2 : i < 32) :
    bitAt (w.push v) i = bitAt w (i - n) := by
  have h3 : ¬ i < n := by omega
  simp [bitAt, Word.push, h3, h2, BitVec.getLsbD_of_ge v i h, BitVec.getLsbD_eq_getElem (show i - n < 32 by omega)]

/-- A part of the field just pushed. -/
theorem field_push_low {n : Nat} (w : Word) (v : BitVec n) {lo len : Nat} (h : lo + len ≤ n) (h2 : lo + len ≤ 32) :
    field (w.push v) lo len = v.extractLsb' lo len := by
  apply BitVec.eq_of_getLsbD_eq
  intro i hi
  have := bitAt_push_low w v (i := lo + i) (by omega) (by omega)
  simp only [bitAt] at this
  simp [field, hi, this]

/-- A field above the one just pushed. -/
theorem field_push_high {n : Nat} (w : Word) (v : BitVec n) {lo len : Nat} (h : n ≤ lo) (h2 : lo + len ≤ 32) :
    field (w.push v) lo len = field w (lo - n) len := by
  apply BitVec.eq_of_getLsbD_eq
  intro i hi
  have := bitAt_push_high w v (i := lo + i) (by omega) (by omega)
  simp only [bitAt] at this
  simp only [field, BitVec.getLsbD_extractLsb', hi, decide_true, Bool.true_and, this]
  congr 1
  omega

/-- The bits of a field. -/
theorem getLsbD_field (w : Word) (lo len i : Nat) : (field w lo len).getLsbD i = (decide (i < len) && bitAt w (lo + i)) := by
  simp [field, bitAt]

theorem getElem_field (w : Word) (lo len i : Nat) (h : i < len) : (field w lo len)[i] = bitAt w (lo + i) := by
  rw [← BitVec.getLsbD_eq_getElem, getLsbD_field]; simp [h]

@[simp] theorem Cond.ofBits_bits (c : Cond) : Cond.ofBits c.bits = some c := by cases c <;> rfl

@[simp] theorem ShiftType.ofBits_bits (t : ShiftType) : ShiftType.ofBits t.bits = t := by cases t <;> rfl

@[simp] theorem ShiftType.bits_ofBits (b : BitVec 2) : (ShiftType.ofBits b).bits = b := by revert b; decide

@[simp] theorem HsIndex.ofBits_pw (ix : HsIndex) : HsIndex.ofBits ix.p ix.w = ix := by cases ix <;> rfl

/-- The condition read from a code has that code. -/
theorem Cond.bits_of_ofBits {b : BitVec 4} {c : Cond} (h : Cond.ofBits b = some c) : c.bits = b := by
  revert b c; decide

/-- The indexing form read from P and W has that P. -/
@[simp] theorem HsIndex.p_ofBits (p w : Bool) : (HsIndex.ofBits p w).p = p := by revert p w; decide

/-- The indexing form read from P and W has that W. -/
@[simp] theorem HsIndex.w_ofBits (p w : Bool) : (HsIndex.ofBits p w).w = w := by revert p w; decide

end Sys2Proof
end

