-- ==== Sys2Proof/Laws/Flags.lean ====
section
/-! SUPPORT. The fields of a status word after each of its updates. -/

namespace Sys2Proof.Machine

section pack
variable (n z c v : Bool) (r : BitVec 20) (i f t : Bool) (m : BitVec 5)

@[simp] theorem psrN_pack : psrN (psrPack n z c v r i f t m) = n := by
  simp [psrN, psrPack, Word.pushBit, bitAt_push_high, bitAt_push_low]
@[simp] theorem psrZ_pack : psrZ (psrPack n z c v r i f t m) = z := by
  simp [psrZ, psrPack, Word.pushBit, bitAt_push_high, bitAt_push_low]
@[simp] theorem psrC_pack : psrC (psrPack n z c v r i f t m) = c := by
  simp [psrC, psrPack, Word.pushBit, bitAt_push_high, bitAt_push_low]
@[simp] theorem psrV_pack : psrV (psrPack n z c v r i f t m) = v := by
  simp [psrV, psrPack, Word.pushBit, bitAt_push_high, bitAt_push_low]
@[simp] theorem psrI_pack : psrI (psrPack n z c v r i f t m) = i := by
  simp [psrI, psrPack, Word.pushBit, bitAt_push_high, bitAt_push_low]
@[simp] theorem psrF_pack : psrF (psrPack n z c v r i f t m) = f := by
  simp [psrF, psrPack, Word.pushBit, bitAt_push_high, bitAt_push_low]
@[simp] theorem psrT_pack : psrT (psrPack n z c v r i f t m) = t := by
  simp [psrT, psrPack, Word.pushBit, bitAt_push_high, bitAt_push_low]
@[simp] theorem psrM_pack : psrM (psrPack n z c v r i f t m) = m := by
  simp [psrM, psrPack, Word.pushBit, field_push_low]
@[simp] theorem reserved_pack : field (psrPack n z c v r i f t m) 8 20 = r := by
  simp [psrPack, Word.pushBit, field_push_high, field_push_low]

end pack

/-- A status word is its fields. -/
theorem psrPack_fields (w : Word) :
    psrPack (psrN w) (psrZ w) (psrC w) (psrV w) (field w 8 20) (psrI w) (psrF w) (psrT w) (psrM w) = w := by
  apply BitVec.eq_of_getLsbD_eq
  intro i hi
  change bitAt _ i = bitAt w i
  unfold psrPack psrN psrZ psrC psrV psrI psrF psrT psrM
  interval_cases i <;> simp [Word.pushBit, bitAt_push_high, bitAt_push_low, getElem_field]

/-- Two status words with the same fields are equal. -/
theorem psr_ext {w x : Word} (hn : psrN w = psrN x) (hz : psrZ w = psrZ x) (hc : psrC w = psrC x) (hv : psrV w = psrV x)
    (hr : field w 8 20 = field x 8 20) (hi : psrI w = psrI x) (hf : psrF w = psrF x) (ht : psrT w = psrT x)
    (hm : psrM w = psrM x) : w = x := by
  rw [← psrPack_fields w, ← psrPack_fields x, hn, hz, hc, hv, hr, hi, hf, ht, hm]

section updates
variable (w : Word) (n z c v f t : Bool) (m : BitVec 5)

@[simp] theorem psrN_setFlags : psrN (psrSetFlags w n z c v) = n := psrN_pack ..
@[simp] theorem psrZ_setFlags : psrZ (psrSetFlags w n z c v) = z := psrZ_pack ..
@[simp] theorem psrC_setFlags : psrC (psrSetFlags w n z c v) = c := psrC_pack ..
@[simp] theorem psrV_setFlags : psrV (psrSetFlags w n z c v) = v := psrV_pack ..
@[simp] theorem psrI_setFlags : psrI (psrSetFlags w n z c v) = psrI w := psrI_pack ..
@[simp] theorem psrF_setFlags : psrF (psrSetFlags w n z c v) = psrF w := psrF_pack ..
@[simp] theorem psrT_setFlags : psrT (psrSetFlags w n z c v) = psrT w := psrT_pack ..
@[simp] theorem psrM_setFlags : psrM (psrSetFlags w n z c v) = psrM w := psrM_pack ..
@[simp] theorem reserved_setFlags : field (psrSetFlags w n z c v) 8 20 = field w 8 20 := reserved_pack ..

@[simp] theorem psrN_setT : psrN (psrSetT w t) = psrN w := psrN_pack ..
@[simp] theorem psrZ_setT : psrZ (psrSetT w t) = psrZ w := psrZ_pack ..
@[simp] theorem psrC_setT : psrC (psrSetT w t) = psrC w := psrC_pack ..
@[simp] theorem psrV_setT : psrV (psrSetT w t) = psrV w := psrV_pack ..
@[simp] theorem psrI_setT : psrI (psrSetT w t) = psrI w := psrI_pack ..
@[simp] theorem psrF_setT : psrF (psrSetT w t) = psrF w := psrF_pack ..
@[simp] theorem psrT_setT : psrT (psrSetT w t) = t := psrT_pack ..
@[simp] theorem psrM_setT : psrM (psrSetT w t) = psrM w := psrM_pack ..
@[simp] theorem reserved_setT : field (psrSetT w t) 8 20 = field w 8 20 := reserved_pack ..

@[simp] theorem psrN_enter : psrN (psrEnter w f m) = psrN w := psrN_pack ..
@[simp] theorem psrZ_enter : psrZ (psrEnter w f m) = psrZ w := psrZ_pack ..
@[simp] theorem psrC_enter : psrC (psrEnter w f m) = psrC w := psrC_pack ..
@[simp] theorem psrV_enter : psrV (psrEnter w f m) = psrV w := psrV_pack ..
@[simp] theorem psrI_enter : psrI (psrEnter w f m) = true := psrI_pack ..
@[simp] theorem psrF_enter : psrF (psrEnter w f m) = f := psrF_pack ..
@[simp] theorem psrT_enter : psrT (psrEnter w f m) = false := psrT_pack ..
@[simp] theorem psrM_enter : psrM (psrEnter w f m) = m := psrM_pack ..
@[simp] theorem reserved_enter : field (psrEnter w f m) 8 20 = field w 8 20 := reserved_pack ..

end updates

/-- Bits 27:0 after the flags are written (R147). -/
@[simp] theorem control_setFlags (w : Word) (n z c v : Bool) : field (psrSetFlags w n z c v) 0 28 = field w 0 28 := by
  apply BitVec.eq_of_getLsbD_eq
  intro i hi
  simp only [getLsbD_field, hi, decide_true, Bool.true_and, Nat.zero_add]
  unfold psrSetFlags psrPack psrI psrF psrT psrM
  interval_cases i <;> simp [Word.pushBit, bitAt_push_high, bitAt_push_low, getElem_field]

/-- Bits 31:28 of two words with the same flags (R31). -/
theorem flags_ext {w x : Word} (hn : psrN w = psrN x) (hz : psrZ w = psrZ x) (hc : psrC w = psrC x) (hv : psrV w = psrV x) :
    field w 28 4 = field x 28 4 := by
  apply BitVec.eq_of_getLsbD_eq
  intro i hi
  unfold psrN at hn; unfold psrZ at hz; unfold psrC at hc; unfold psrV at hv
  interval_cases i <;> simp [getElem_field, hn, hz, hc, hv]

/-- A bit of a status register after a masked write (R222): the operand's bit where the mask names it and the bit holds a field,
otherwise the old bit. -/
theorem bitAt_psrWrite (w v mask : Word) (i : Nat) (h : i < 32) :
    bitAt (psrWrite w v mask) i = if bitAt mask i && bitAt psrNamed i then bitAt v i else bitAt w i := by
  simp only [bitAt, psrWrite, BitVec.getLsbD_or, BitVec.getLsbD_and, BitVec.getLsbD_not, h, decide_true, Bool.true_and]
  rcases Bool.eq_false_or_eq_true (mask.getLsbD i) with h1 | h1 <;>
    rcases Bool.eq_false_or_eq_true (psrNamed.getLsbD i) with h2 | h2 <;> simp [h1, h2]

/-- A bit of a status register as MRS reads it (R35). -/
theorem bitAt_psrRead (w free : Word) (i : Nat) (h : i < 32) :
    bitAt (psrRead w free) i = if bitAt psrNamed i then bitAt w i else bitAt free i := by
  simp only [bitAt, psrRead, BitVec.getLsbD_or, BitVec.getLsbD_and, BitVec.getLsbD_not, h, decide_true, Bool.true_and]
  rcases Bool.eq_false_or_eq_true (psrNamed.getLsbD i) with h2 | h2 <;> simp [h2]

/-- A bit of the byte mask of MSR (R222). -/
theorem bitAt_psrByteMask (mask : BitVec 4) (i : Nat) (h : i < 32) : bitAt (psrByteMask mask) i = mask.getLsbD (i / 8) := by
  revert mask
  interval_cases i <;> decide

/-- Two fields are equal when their bits are. -/
theorem field_ext {w x : Word} {lo len : Nat} (h : ∀ i, lo ≤ i → i < lo + len → bitAt w i = bitAt x i) :
    field w lo len = field x lo len := by
  apply BitVec.eq_of_getLsbD_eq
  intro i hi
  rw [getLsbD_field, getLsbD_field, h _ (by omega) (by omega)]

/-- The bits that hold a named field (R30, R35). -/
theorem bitAt_psrNamed (i : Nat) (h : i < 32) : bitAt psrNamed i = decide (i < 8 ∨ 28 ≤ i) := by
  interval_cases i <;> decide

end Sys2Proof.Machine
end

