-- ==== Sys2Proof/Laws/Memory.lean ====
section
/-! SUPPORT. Memory: what a byte reads as after a write, the bytes of a wide access, and the canonical form, which every write
keeps. -/

namespace Sys2Proof.Machine

theorem Memory.read_erase (m : Memory) (a b : Nat) :
    (Memory.erase m a).read b = if b = a then Memory.unlisted else Memory.read m b := by
  induction m with
  | nil => simp [Memory.erase, Memory.read]
  | cons c m ih =>
    obtain ⟨x, v⟩ := c
    by_cases hx : x = a
    · subst hx; simp only [Memory.erase, if_true, ih, Memory.read]
      by_cases hb : b = x
      · simp [hb]
      · simp [hb, Ne.symm hb]
    · simp only [Memory.erase, hx, if_false, Memory.read, ih]
      by_cases hxb : x = b
      · subst hxb; simp [hx]
      · simp [hxb]

theorem Memory.read_insert_same (m : Memory) (a : Nat) (v : Byte) (h : ∀ c ∈ m, c.1 ≠ a) :
    (Memory.insert m a v).read a = v := by
  induction m with
  | nil => simp [Memory.insert, Memory.read]
  | cons c m ih =>
    obtain ⟨x, w⟩ := c
    by_cases hx : a < x
    · simp [Memory.insert, hx, Memory.read]
    · have hne : x ≠ a := h (x, w) (by simp)
      simp [Memory.insert, hx, Memory.read, hne, ih (fun c hc => h c (by simp [hc]))]

theorem Memory.read_insert_other (m : Memory) (a b : Nat) (v : Byte) (h : b ≠ a) :
    (Memory.insert m a v).read b = Memory.read m b := by
  induction m with
  | nil => simp [Memory.insert, Memory.read, Ne.symm h]
  | cons c m ih =>
    obtain ⟨x, w⟩ := c
    by_cases hx : a < x
    · simp [Memory.insert, hx, Memory.read, Ne.symm h]
    · simp [Memory.insert, hx, Memory.read, ih]

theorem Memory.erase_keys (m : Memory) (a : Nat) : ∀ c ∈ Memory.erase m a, c.1 ≠ a := by
  induction m with
  | nil => simp [Memory.erase]
  | cons c m ih =>
    obtain ⟨x, w⟩ := c
    by_cases hx : x = a
    · simpa [Memory.erase, hx] using ih
    · simp only [Memory.erase, hx, if_false, List.mem_cons, forall_eq_or_imp]
      exact ⟨hx, ih⟩

/-- A byte after a write: the value written at that address, the old byte at every other one. -/
@[simp] theorem Memory.read_write (m : Memory) (a b : Nat) (v : Byte) :
    (Memory.write m a v).read b = if b = a then v else Memory.read m b := by
  unfold Memory.write
  by_cases hv : v = Memory.unlisted
  · rw [if_pos hv, Memory.read_erase, hv]
  · rw [if_neg hv]
    by_cases hb : b = a
    · subst hb; rw [if_pos rfl, Memory.read_insert_same _ _ _ (Memory.erase_keys m b)]
    · rw [if_neg hb, Memory.read_insert_other _ _ _ _ hb, Memory.read_erase, if_neg hb]

/-! The canonical form. -/

theorem Memory.wf_cons (x : Nat) (b : Byte) (m : Memory) :
    Memory.wf ((x, b) :: m) = true ↔
      b ≠ Memory.unlisted ∧ x < 2 ^ 32 ∧ (∀ c ∈ m, x < c.1) ∧ Memory.wf m = true := by
  simp [Memory.wf, and_assoc]

theorem Memory.mem_erase (m : Memory) (a : Nat) (c : Host.Cell) (h : c ∈ Memory.erase m a) : c ∈ m := by
  induction m with
  | nil => simp [Memory.erase] at h
  | cons d m ih =>
    obtain ⟨x, w⟩ := d
    by_cases hx : x = a
    · rw [Memory.erase, if_pos hx] at h; exact List.mem_cons_of_mem _ (ih h)
    · rw [Memory.erase, if_neg hx] at h
      rcases List.mem_cons.1 h with h | h
      · exact h ▸ List.mem_cons_self
      · exact List.mem_cons_of_mem _ (ih h)

theorem Memory.mem_insert (m : Memory) (a : Nat) (v : Byte) (c : Host.Cell) (h : c ∈ Memory.insert m a v) :
    c = (a, v) ∨ c ∈ m := by
  induction m with
  | nil => simpa [Memory.insert] using h
  | cons d m ih =>
    obtain ⟨x, w⟩ := d
    by_cases hx : a < x
    · rw [Memory.insert, if_pos hx] at h; simpa using h
    · rw [Memory.insert, if_neg hx] at h
      rcases List.mem_cons.1 h with h | h
      · exact .inr (h ▸ List.mem_cons_self)
      · rcases ih h with h | h
        · exact .inl h
        · exact .inr (List.mem_cons_of_mem _ h)

theorem Memory.wf_erase (m : Memory) (a : Nat) (h : Memory.wf m = true) : Memory.wf (Memory.erase m a) = true := by
  induction m with
  | nil => exact h
  | cons d m ih =>
    obtain ⟨x, w⟩ := d
    obtain ⟨hb, hl, hs, hw⟩ := (Memory.wf_cons x w m).1 h
    by_cases hx : x = a
    · rw [Memory.erase, if_pos hx]; exact ih hw
    · rw [Memory.erase, if_neg hx]
      exact (Memory.wf_cons x w _).2 ⟨hb, hl, fun c hc => hs c (Memory.mem_erase m a c hc), ih hw⟩

theorem Memory.wf_insert (m : Memory) (a : Nat) (v : Byte) (h : Memory.wf m = true) (ha : a < 2 ^ 32)
    (hv : v ≠ Memory.unlisted) (hk : ∀ c ∈ m, c.1 ≠ a) : Memory.wf (Memory.insert m a v) = true := by
  induction m with
  | nil => exact (Memory.wf_cons a v []).2 ⟨hv, ha, by simp, rfl⟩
  | cons d m ih =>
    obtain ⟨x, w⟩ := d
    obtain ⟨hb, hl, hs, hw⟩ := (Memory.wf_cons x w m).1 h
    by_cases hx : a < x
    · rw [Memory.insert, if_pos hx]
      refine (Memory.wf_cons a v _).2 ⟨hv, ha, ?_, h⟩
      intro c hc
      rcases List.mem_cons.1 hc with hc | hc
      · exact hc ▸ hx
      · exact Nat.lt_trans hx (hs c hc)
    · rw [Memory.insert, if_neg hx]
      refine (Memory.wf_cons x w _).2 ⟨hb, hl, ?_, ih hw fun c hc => hk c (List.mem_cons_of_mem _ hc)⟩
      intro c hc
      rcases Memory.mem_insert m a v c hc with hc | hc
      · have : x ≠ a := hk (x, w) List.mem_cons_self
        subst hc; exact Nat.lt_of_le_of_ne (Nat.le_of_not_lt hx) this
      · exact hs c hc

/-- Writing a byte keeps the canonical form. -/
theorem Memory.wf_write (m : Memory) (a : Nat) (v : Byte) (h : Memory.wf m = true) (ha : a < 2 ^ 32) :
    Memory.wf (Memory.write m a v) = true := by
  unfold Memory.write
  by_cases hv : v = Memory.unlisted
  · rw [if_pos hv]; exact Memory.wf_erase m a h
  · rw [if_neg hv]; exact Memory.wf_insert _ a v (Memory.wf_erase m a h) ha hv (Memory.erase_keys m a)

theorem byteAddr_lt (a : Word) (k : Nat) : byteAddr a k < 2 ^ 32 := (a + BitVec.ofNat 32 k).isLt

/-- Writing one, two or four bytes keeps the canonical form. -/
theorem Memory.wf_writeSize (m : Memory) (a v : Word) (n : AccessSize) (h : Memory.wf m = true) :
    Memory.wf (Memory.writeSize m a v n) = true := by
  have hl := byteAddr_lt a
  cases n
  · exact Memory.wf_write _ _ _ h (hl 0)
  · exact Memory.wf_write _ _ _ (Memory.wf_write _ _ _ h (hl 0)) (hl 1)
  · exact Memory.wf_write _ _ _ (Memory.wf_write _ _ _ (Memory.wf_write _ _ _ (Memory.wf_write _ _ _ h (hl 0)) (hl 1)) (hl 2)) (hl 3)

/-! Wide accesses. -/

/-- The bytes of an access are four different addresses. -/
theorem byteAddr_inj (a : Word) (j k : Nat) (hj : j < 4) (hk : k < 4) : byteAddr a j = byteAddr a k ↔ j = k := by
  unfold byteAddr
  constructor
  · intro h
    have h1 : BitVec.ofNat 32 j = BitVec.ofNat 32 k := by
      have := BitVec.eq_of_toNat_eq h
      exact (BitVec.add_right_inj a).1 this
    have h2 := congrArg BitVec.toNat h1
    simp only [BitVec.toNat_ofNat] at h2
    omega
  · rintro rfl; rfl

/-- Every byte outside the access reads as before. -/
theorem Memory.read_writeSize_other (m : Memory) (a v : Word) (n : AccessSize) (b : Nat)
    (h : ∀ k < n.bytes, b ≠ byteAddr a k) : (Memory.writeSize m a v n).read b = Memory.read m b := by
  cases n
  · simp [Memory.writeSize, h 0 (by decide)]
  · simp [Memory.writeSize, h 0 (by decide), h 1 (by decide)]
  · simp [Memory.writeSize, h 0 (by decide), h 1 (by decide), h 2 (by decide), h 3 (by decide)]

/-- Byte `k` of the access holds byte `k` of the value (R61). -/
theorem Memory.read_writeSize_same (m : Memory) (a v : Word) (n : AccessSize) (k : Nat) (hk : k < n.bytes) :
    (Memory.writeSize m a v n).read (byteAddr a k) = byteOf v k := by
  have inj := byteAddr_inj a
  cases n <;> simp only [AccessSize.bytes] at hk <;> interval_cases k <;>
    simp [Memory.writeSize, inj 0 1, inj 0 2, inj 0 3, inj 1 2, inj 1 3, inj 2 3]

/-- A bit of four bytes put together (R61). -/
theorem bitAt_wordOfBytes (b0 b1 b2 b3 : Byte) (i : Nat) (h : i < 32) : bitAt (wordOfBytes b0 b1 b2 b3) i =
    if i < 8 then b0.getLsbD i else if i < 16 then b1.getLsbD (i - 8)
    else if i < 24 then b2.getLsbD (i - 16) else b3.getLsbD (i - 24) := by
  simp only [bitAt, wordOfBytes, BitVec.getLsbD_append]
  interval_cases i <;> rfl

/-- A word is its four bytes. -/
theorem wordOfBytes_byteOf (v : Word) : wordOfBytes (byteOf v 0) (byteOf v 1) (byteOf v 2) (byteOf v 3) = v := by
  apply BitVec.eq_of_getLsbD_eq
  intro i hi
  change bitAt _ i = bitAt v i
  rw [bitAt_wordOfBytes _ _ _ _ _ hi]
  simp only [byteOf, BitVec.getLsbD_extractLsb', bitAt]
  interval_cases i <;> simp

end Sys2Proof.Machine
end

