-- ==== Sys2Proof/Laws/State.lean ====
section
/-! SUPPORT. One lemma per field of State per update, true by `rfl`: no later proof unfolds a record update. -/

namespace Sys2Proof.Machine

@[simp] theorem State.setPReg_regs (s : State) (p : PReg) (v : Word) : (s.setPReg p v).regs = s.regs.set p v := rfl
@[simp] theorem State.setPReg_pc (s : State) (p : PReg) (v : Word) : (s.setPReg p v).pc = s.pc := rfl
@[simp] theorem State.setPReg_cpsr (s : State) (p : PReg) (v : Word) : (s.setPReg p v).cpsr = s.cpsr := rfl
@[simp] theorem State.setPReg_spsr (s : State) (p : PReg) (v : Word) : (s.setPReg p v).spsr = s.spsr := rfl
@[simp] theorem State.setPReg_mem (s : State) (p : PReg) (v : Word) : (s.setPReg p v).mem = s.mem := rfl
@[simp] theorem State.setPReg_pipe (s : State) (p : PReg) (v : Word) : (s.setPReg p v).pipe = s.pipe := rfl
@[simp] theorem State.setPReg_bankHazard (s : State) (p : PReg) (v : Word) : (s.setPReg p v).bankHazard = s.bankHazard := rfl
@[simp] theorem State.setPReg_inputs (s : State) (p : PReg) (v : Word) : (s.setPReg p v).inputs = s.inputs := rfl
@[simp] theorem State.setPReg_io (s : State) (p : PReg) (v : Word) : (s.setPReg p v).io = s.io := rfl
@[simp] theorem State.setPReg_draws (s : State) (p : PReg) (v : Word) : (s.setPReg p v).draws = s.draws := rfl
@[simp] theorem State.setPReg_platform (s : State) (p : PReg) (v : Word) : (s.setPReg p v).platform = s.platform := rfl

@[simp] theorem State.setPc_regs (s : State) (v : Word) : (s.setPc v).regs = s.regs := rfl
@[simp] theorem State.setPc_pc (s : State) (v : Word) : (s.setPc v).pc = v := rfl
@[simp] theorem State.setPc_cpsr (s : State) (v : Word) : (s.setPc v).cpsr = s.cpsr := rfl
@[simp] theorem State.setPc_spsr (s : State) (v : Word) : (s.setPc v).spsr = s.spsr := rfl
@[simp] theorem State.setPc_mem (s : State) (v : Word) : (s.setPc v).mem = s.mem := rfl
@[simp] theorem State.setPc_pipe (s : State) (v : Word) : (s.setPc v).pipe = s.pipe := rfl
@[simp] theorem State.setPc_bankHazard (s : State) (v : Word) : (s.setPc v).bankHazard = s.bankHazard := rfl
@[simp] theorem State.setPc_inputs (s : State) (v : Word) : (s.setPc v).inputs = s.inputs := rfl
@[simp] theorem State.setPc_io (s : State) (v : Word) : (s.setPc v).io = s.io := rfl
@[simp] theorem State.setPc_draws (s : State) (v : Word) : (s.setPc v).draws = s.draws := rfl
@[simp] theorem State.setPc_platform (s : State) (v : Word) : (s.setPc v).platform = s.platform := rfl

@[simp] theorem State.setCpsr_regs (s : State) (v : Word) : (s.setCpsr v).regs = s.regs := rfl
@[simp] theorem State.setCpsr_pc (s : State) (v : Word) : (s.setCpsr v).pc = s.pc := rfl
@[simp] theorem State.setCpsr_cpsr (s : State) (v : Word) : (s.setCpsr v).cpsr = v := rfl
@[simp] theorem State.setCpsr_spsr (s : State) (v : Word) : (s.setCpsr v).spsr = s.spsr := rfl
@[simp] theorem State.setCpsr_mem (s : State) (v : Word) : (s.setCpsr v).mem = s.mem := rfl
@[simp] theorem State.setCpsr_pipe (s : State) (v : Word) : (s.setCpsr v).pipe = s.pipe := rfl
@[simp] theorem State.setCpsr_bankHazard (s : State) (v : Word) : (s.setCpsr v).bankHazard = s.bankHazard := rfl
@[simp] theorem State.setCpsr_inputs (s : State) (v : Word) : (s.setCpsr v).inputs = s.inputs := rfl
@[simp] theorem State.setCpsr_io (s : State) (v : Word) : (s.setCpsr v).io = s.io := rfl
@[simp] theorem State.setCpsr_draws (s : State) (v : Word) : (s.setCpsr v).draws = s.draws := rfl
@[simp] theorem State.setCpsr_platform (s : State) (v : Word) : (s.setCpsr v).platform = s.platform := rfl

@[simp] theorem State.setSpsr_regs (s : State) (k : SpsrIdx) (v : Word) : (s.setSpsr k v).regs = s.regs := rfl
@[simp] theorem State.setSpsr_pc (s : State) (k : SpsrIdx) (v : Word) : (s.setSpsr k v).pc = s.pc := rfl
@[simp] theorem State.setSpsr_cpsr (s : State) (k : SpsrIdx) (v : Word) : (s.setSpsr k v).cpsr = s.cpsr := rfl
@[simp] theorem State.setSpsr_spsr (s : State) (k : SpsrIdx) (v : Word) : (s.setSpsr k v).spsr = s.spsr.set k v := rfl
@[simp] theorem State.setSpsr_mem (s : State) (k : SpsrIdx) (v : Word) : (s.setSpsr k v).mem = s.mem := rfl
@[simp] theorem State.setSpsr_pipe (s : State) (k : SpsrIdx) (v : Word) : (s.setSpsr k v).pipe = s.pipe := rfl
@[simp] theorem State.setSpsr_bankHazard (s : State) (k : SpsrIdx) (v : Word) : (s.setSpsr k v).bankHazard = s.bankHazard := rfl
@[simp] theorem State.setSpsr_inputs (s : State) (k : SpsrIdx) (v : Word) : (s.setSpsr k v).inputs = s.inputs := rfl
@[simp] theorem State.setSpsr_io (s : State) (k : SpsrIdx) (v : Word) : (s.setSpsr k v).io = s.io := rfl
@[simp] theorem State.setSpsr_draws (s : State) (k : SpsrIdx) (v : Word) : (s.setSpsr k v).draws = s.draws := rfl
@[simp] theorem State.setSpsr_platform (s : State) (k : SpsrIdx) (v : Word) : (s.setSpsr k v).platform = s.platform := rfl

@[simp] theorem State.setMem_regs (s : State) (m : Memory) : (s.setMem m).regs = s.regs := rfl
@[simp] theorem State.setMem_pc (s : State) (m : Memory) : (s.setMem m).pc = s.pc := rfl
@[simp] theorem State.setMem_cpsr (s : State) (m : Memory) : (s.setMem m).cpsr = s.cpsr := rfl
@[simp] theorem State.setMem_spsr (s : State) (m : Memory) : (s.setMem m).spsr = s.spsr := rfl
@[simp] theorem State.setMem_mem (s : State) (m : Memory) : (s.setMem m).mem = m := rfl
@[simp] theorem State.setMem_pipe (s : State) (m : Memory) : (s.setMem m).pipe = s.pipe := rfl
@[simp] theorem State.setMem_bankHazard (s : State) (m : Memory) : (s.setMem m).bankHazard = s.bankHazard := rfl
@[simp] theorem State.setMem_inputs (s : State) (m : Memory) : (s.setMem m).inputs = s.inputs := rfl
@[simp] theorem State.setMem_io (s : State) (m : Memory) : (s.setMem m).io = s.io := rfl
@[simp] theorem State.setMem_draws (s : State) (m : Memory) : (s.setMem m).draws = s.draws := rfl
@[simp] theorem State.setMem_platform (s : State) (m : Memory) : (s.setMem m).platform = s.platform := rfl

@[simp] theorem State.setPipe_regs (s : State) (p : Option Pipeline) : (s.setPipe p).regs = s.regs := rfl
@[simp] theorem State.setPipe_pc (s : State) (p : Option Pipeline) : (s.setPipe p).pc = s.pc := rfl
@[simp] theorem State.setPipe_cpsr (s : State) (p : Option Pipeline) : (s.setPipe p).cpsr = s.cpsr := rfl
@[simp] theorem State.setPipe_spsr (s : State) (p : Option Pipeline) : (s.setPipe p).spsr = s.spsr := rfl
@[simp] theorem State.setPipe_mem (s : State) (p : Option Pipeline) : (s.setPipe p).mem = s.mem := rfl
@[simp] theorem State.setPipe_pipe (s : State) (p : Option Pipeline) : (s.setPipe p).pipe = p := rfl
@[simp] theorem State.setPipe_bankHazard (s : State) (p : Option Pipeline) : (s.setPipe p).bankHazard = s.bankHazard := rfl
@[simp] theorem State.setPipe_inputs (s : State) (p : Option Pipeline) : (s.setPipe p).inputs = s.inputs := rfl
@[simp] theorem State.setPipe_io (s : State) (p : Option Pipeline) : (s.setPipe p).io = s.io := rfl
@[simp] theorem State.setPipe_draws (s : State) (p : Option Pipeline) : (s.setPipe p).draws = s.draws := rfl
@[simp] theorem State.setPipe_platform (s : State) (p : Option Pipeline) : (s.setPipe p).platform = s.platform := rfl

@[simp] theorem State.setHazard_regs (s : State) (b : Bool) : (s.setHazard b).regs = s.regs := rfl
@[simp] theorem State.setHazard_pc (s : State) (b : Bool) : (s.setHazard b).pc = s.pc := rfl
@[simp] theorem State.setHazard_cpsr (s : State) (b : Bool) : (s.setHazard b).cpsr = s.cpsr := rfl
@[simp] theorem State.setHazard_spsr (s : State) (b : Bool) : (s.setHazard b).spsr = s.spsr := rfl
@[simp] theorem State.setHazard_mem (s : State) (b : Bool) : (s.setHazard b).mem = s.mem := rfl
@[simp] theorem State.setHazard_pipe (s : State) (b : Bool) : (s.setHazard b).pipe = s.pipe := rfl
@[simp] theorem State.setHazard_bankHazard (s : State) (b : Bool) : (s.setHazard b).bankHazard = b := rfl
@[simp] theorem State.setHazard_inputs (s : State) (b : Bool) : (s.setHazard b).inputs = s.inputs := rfl
@[simp] theorem State.setHazard_io (s : State) (b : Bool) : (s.setHazard b).io = s.io := rfl
@[simp] theorem State.setHazard_draws (s : State) (b : Bool) : (s.setHazard b).draws = s.draws := rfl
@[simp] theorem State.setHazard_platform (s : State) (b : Bool) : (s.setHazard b).platform = s.platform := rfl

@[simp] theorem State.setInputs_regs (s : State) (l : List Inputs) : (s.setInputs l).regs = s.regs := rfl
@[simp] theorem State.setInputs_pc (s : State) (l : List Inputs) : (s.setInputs l).pc = s.pc := rfl
@[simp] theorem State.setInputs_cpsr (s : State) (l : List Inputs) : (s.setInputs l).cpsr = s.cpsr := rfl
@[simp] theorem State.setInputs_spsr (s : State) (l : List Inputs) : (s.setInputs l).spsr = s.spsr := rfl
@[simp] theorem State.setInputs_mem (s : State) (l : List Inputs) : (s.setInputs l).mem = s.mem := rfl
@[simp] theorem State.setInputs_pipe (s : State) (l : List Inputs) : (s.setInputs l).pipe = s.pipe := rfl
@[simp] theorem State.setInputs_bankHazard (s : State) (l : List Inputs) : (s.setInputs l).bankHazard = s.bankHazard := rfl
@[simp] theorem State.setInputs_inputs (s : State) (l : List Inputs) : (s.setInputs l).inputs = l := rfl
@[simp] theorem State.setInputs_io (s : State) (l : List Inputs) : (s.setInputs l).io = s.io := rfl
@[simp] theorem State.setInputs_draws (s : State) (l : List Inputs) : (s.setInputs l).draws = s.draws := rfl
@[simp] theorem State.setInputs_platform (s : State) (l : List Inputs) : (s.setInputs l).platform = s.platform := rfl

@[simp] theorem State.addIo_regs (s : State) (e : IoEvent) : (s.addIo e).regs = s.regs := rfl
@[simp] theorem State.addIo_pc (s : State) (e : IoEvent) : (s.addIo e).pc = s.pc := rfl
@[simp] theorem State.addIo_cpsr (s : State) (e : IoEvent) : (s.addIo e).cpsr = s.cpsr := rfl
@[simp] theorem State.addIo_spsr (s : State) (e : IoEvent) : (s.addIo e).spsr = s.spsr := rfl
@[simp] theorem State.addIo_mem (s : State) (e : IoEvent) : (s.addIo e).mem = s.mem := rfl
@[simp] theorem State.addIo_pipe (s : State) (e : IoEvent) : (s.addIo e).pipe = s.pipe := rfl
@[simp] theorem State.addIo_bankHazard (s : State) (e : IoEvent) : (s.addIo e).bankHazard = s.bankHazard := rfl
@[simp] theorem State.addIo_inputs (s : State) (e : IoEvent) : (s.addIo e).inputs = s.inputs := rfl
@[simp] theorem State.addIo_io (s : State) (e : IoEvent) : (s.addIo e).io = e :: s.io := rfl
@[simp] theorem State.addIo_draws (s : State) (e : IoEvent) : (s.addIo e).draws = s.draws := rfl
@[simp] theorem State.addIo_platform (s : State) (e : IoEvent) : (s.addIo e).platform = s.platform := rfl

@[simp] theorem State.draw_regs (s : State) (n : Nat) : (s.draw n).regs = s.regs := rfl
@[simp] theorem State.draw_pc (s : State) (n : Nat) : (s.draw n).pc = s.pc := rfl
@[simp] theorem State.draw_cpsr (s : State) (n : Nat) : (s.draw n).cpsr = s.cpsr := rfl
@[simp] theorem State.draw_spsr (s : State) (n : Nat) : (s.draw n).spsr = s.spsr := rfl
@[simp] theorem State.draw_mem (s : State) (n : Nat) : (s.draw n).mem = s.mem := rfl
@[simp] theorem State.draw_pipe (s : State) (n : Nat) : (s.draw n).pipe = s.pipe := rfl
@[simp] theorem State.draw_bankHazard (s : State) (n : Nat) : (s.draw n).bankHazard = s.bankHazard := rfl
@[simp] theorem State.draw_inputs (s : State) (n : Nat) : (s.draw n).inputs = s.inputs := rfl
@[simp] theorem State.draw_io (s : State) (n : Nat) : (s.draw n).io = s.io := rfl
@[simp] theorem State.draw_draws (s : State) (n : Nat) : (s.draw n).draws = s.draws + n := rfl
@[simp] theorem State.draw_platform (s : State) (n : Nat) : (s.draw n).platform = s.platform := rfl

@[simp] theorem State.branchTo_regs (s : State) (v : Word) : (s.branchTo v).regs = s.regs := rfl
@[simp] theorem State.branchTo_pc (s : State) (v : Word) : (s.branchTo v).pc = v := rfl
@[simp] theorem State.branchTo_cpsr (s : State) (v : Word) : (s.branchTo v).cpsr = s.cpsr := rfl
@[simp] theorem State.branchTo_spsr (s : State) (v : Word) : (s.branchTo v).spsr = s.spsr := rfl
@[simp] theorem State.branchTo_mem (s : State) (v : Word) : (s.branchTo v).mem = s.mem := rfl
@[simp] theorem State.branchTo_pipe (s : State) (v : Word) : (s.branchTo v).pipe = none := rfl
@[simp] theorem State.branchTo_bankHazard (s : State) (v : Word) : (s.branchTo v).bankHazard = s.bankHazard := rfl
@[simp] theorem State.branchTo_inputs (s : State) (v : Word) : (s.branchTo v).inputs = s.inputs := rfl
@[simp] theorem State.branchTo_io (s : State) (v : Word) : (s.branchTo v).io = s.io := rfl
@[simp] theorem State.branchTo_draws (s : State) (v : Word) : (s.branchTo v).draws = s.draws := rfl
@[simp] theorem State.branchTo_platform (s : State) (v : Word) : (s.branchTo v).platform = s.platform := rfl

@[simp] theorem State.setPReg_mode (s : State) (p : PReg) (v : Word) : (s.setPReg p v).mode = s.mode := rfl
@[simp] theorem State.setPReg_privileged (s : State) (p : PReg) (v : Word) : (s.setPReg p v).privileged = s.privileged := rfl
@[simp] theorem State.setPReg_thumb (s : State) (p : PReg) (v : Word) : (s.setPReg p v).thumb = s.thumb := rfl
@[simp] theorem State.setPReg_currentSpsr (s : State) (p : PReg) (v : Word) : (s.setPReg p v).currentSpsr = s.currentSpsr := rfl
@[simp] theorem State.setPReg_accessExists (s : State) (p : PReg) (v : Word) (x : Word) (z : AccessSize) : (s.setPReg p v).accessExists x z = s.accessExists x z := rfl
@[simp] theorem State.setPReg_accessDevice (s : State) (p : PReg) (v : Word) (x : Word) (z : AccessSize) : (s.setPReg p v).accessDevice x z = s.accessDevice x z := rfl

@[simp] theorem State.setPc_mode (s : State) (v : Word) : (s.setPc v).mode = s.mode := rfl
@[simp] theorem State.setPc_privileged (s : State) (v : Word) : (s.setPc v).privileged = s.privileged := rfl
@[simp] theorem State.setPc_thumb (s : State) (v : Word) : (s.setPc v).thumb = s.thumb := rfl
@[simp] theorem State.setPc_currentSpsr (s : State) (v : Word) : (s.setPc v).currentSpsr = s.currentSpsr := rfl
@[simp] theorem State.setPc_preg (s : State) (v : Word) (q : PReg) : (s.setPc v).preg q = s.preg q := rfl
@[simp] theorem State.setPc_accessExists (s : State) (v : Word) (x : Word) (z : AccessSize) : (s.setPc v).accessExists x z = s.accessExists x z := rfl
@[simp] theorem State.setPc_accessDevice (s : State) (v : Word) (x : Word) (z : AccessSize) : (s.setPc v).accessDevice x z = s.accessDevice x z := rfl

@[simp] theorem State.setCpsr_preg (s : State) (v : Word) (q : PReg) : (s.setCpsr v).preg q = s.preg q := rfl
@[simp] theorem State.setCpsr_accessExists (s : State) (v : Word) (x : Word) (z : AccessSize) : (s.setCpsr v).accessExists x z = s.accessExists x z := rfl
@[simp] theorem State.setCpsr_accessDevice (s : State) (v : Word) (x : Word) (z : AccessSize) : (s.setCpsr v).accessDevice x z = s.accessDevice x z := rfl

@[simp] theorem State.setSpsr_mode (s : State) (k : SpsrIdx) (v : Word) : (s.setSpsr k v).mode = s.mode := rfl
@[simp] theorem State.setSpsr_privileged (s : State) (k : SpsrIdx) (v : Word) : (s.setSpsr k v).privileged = s.privileged := rfl
@[simp] theorem State.setSpsr_thumb (s : State) (k : SpsrIdx) (v : Word) : (s.setSpsr k v).thumb = s.thumb := rfl
@[simp] theorem State.setSpsr_preg (s : State) (k : SpsrIdx) (v : Word) (q : PReg) : (s.setSpsr k v).preg q = s.preg q := rfl
@[simp] theorem State.setSpsr_reg (s : State) (k : SpsrIdx) (v : Word) (i : RegNum) : (s.setSpsr k v).reg i = s.reg i := rfl
@[simp] theorem State.setSpsr_userReg (s : State) (k : SpsrIdx) (v : Word) (i : RegNum) : (s.setSpsr k v).userReg i = s.userReg i := rfl
@[simp] theorem State.setSpsr_storedReg (s : State) (k : SpsrIdx) (v : Word) (i : RegNum) : (s.setSpsr k v).storedReg i = s.storedReg i := rfl
@[simp] theorem State.setSpsr_storedUserReg (s : State) (k : SpsrIdx) (v : Word) (i : RegNum) : (s.setSpsr k v).storedUserReg i = s.storedUserReg i := rfl
@[simp] theorem State.setSpsr_accessExists (s : State) (k : SpsrIdx) (v : Word) (x : Word) (z : AccessSize) : (s.setSpsr k v).accessExists x z = s.accessExists x z := rfl
@[simp] theorem State.setSpsr_accessDevice (s : State) (k : SpsrIdx) (v : Word) (x : Word) (z : AccessSize) : (s.setSpsr k v).accessDevice x z = s.accessDevice x z := rfl

@[simp] theorem State.setMem_mode (s : State) (m : Memory) : (s.setMem m).mode = s.mode := rfl
@[simp] theorem State.setMem_privileged (s : State) (m : Memory) : (s.setMem m).privileged = s.privileged := rfl
@[simp] theorem State.setMem_thumb (s : State) (m : Memory) : (s.setMem m).thumb = s.thumb := rfl
@[simp] theorem State.setMem_currentSpsr (s : State) (m : Memory) : (s.setMem m).currentSpsr = s.currentSpsr := rfl
@[simp] theorem State.setMem_preg (s : State) (m : Memory) (q : PReg) : (s.setMem m).preg q = s.preg q := rfl
@[simp] theorem State.setMem_reg (s : State) (m : Memory) (i : RegNum) : (s.setMem m).reg i = s.reg i := rfl
@[simp] theorem State.setMem_userReg (s : State) (m : Memory) (i : RegNum) : (s.setMem m).userReg i = s.userReg i := rfl
@[simp] theorem State.setMem_storedReg (s : State) (m : Memory) (i : RegNum) : (s.setMem m).storedReg i = s.storedReg i := rfl
@[simp] theorem State.setMem_storedUserReg (s : State) (m : Memory) (i : RegNum) : (s.setMem m).storedUserReg i = s.storedUserReg i := rfl
@[simp] theorem State.setMem_accessExists (s : State) (m : Memory) (x : Word) (z : AccessSize) : (s.setMem m).accessExists x z = s.accessExists x z := rfl
@[simp] theorem State.setMem_accessDevice (s : State) (m : Memory) (x : Word) (z : AccessSize) : (s.setMem m).accessDevice x z = s.accessDevice x z := rfl

@[simp] theorem State.setPipe_mode (s : State) (p : Option Pipeline) : (s.setPipe p).mode = s.mode := rfl
@[simp] theorem State.setPipe_privileged (s : State) (p : Option Pipeline) : (s.setPipe p).privileged = s.privileged := rfl
@[simp] theorem State.setPipe_thumb (s : State) (p : Option Pipeline) : (s.setPipe p).thumb = s.thumb := rfl
@[simp] theorem State.setPipe_currentSpsr (s : State) (p : Option Pipeline) : (s.setPipe p).currentSpsr = s.currentSpsr := rfl
@[simp] theorem State.setPipe_preg (s : State) (p : Option Pipeline) (q : PReg) : (s.setPipe p).preg q = s.preg q := rfl
@[simp] theorem State.setPipe_reg (s : State) (p : Option Pipeline) (i : RegNum) : (s.setPipe p).reg i = s.reg i := rfl
@[simp] theorem State.setPipe_userReg (s : State) (p : Option Pipeline) (i : RegNum) : (s.setPipe p).userReg i = s.userReg i := rfl
@[simp] theorem State.setPipe_storedReg (s : State) (p : Option Pipeline) (i : RegNum) : (s.setPipe p).storedReg i = s.storedReg i := rfl
@[simp] theorem State.setPipe_storedUserReg (s : State) (p : Option Pipeline) (i : RegNum) : (s.setPipe p).storedUserReg i = s.storedUserReg i := rfl
@[simp] theorem State.setPipe_accessExists (s : State) (p : Option Pipeline) (x : Word) (z : AccessSize) : (s.setPipe p).accessExists x z = s.accessExists x z := rfl
@[simp] theorem State.setPipe_accessDevice (s : State) (p : Option Pipeline) (x : Word) (z : AccessSize) : (s.setPipe p).accessDevice x z = s.accessDevice x z := rfl

@[simp] theorem State.setHazard_mode (s : State) (b : Bool) : (s.setHazard b).mode = s.mode := rfl
@[simp] theorem State.setHazard_privileged (s : State) (b : Bool) : (s.setHazard b).privileged = s.privileged := rfl
@[simp] theorem State.setHazard_thumb (s : State) (b : Bool) : (s.setHazard b).thumb = s.thumb := rfl
@[simp] theorem State.setHazard_currentSpsr (s : State) (b : Bool) : (s.setHazard b).currentSpsr = s.currentSpsr := rfl
@[simp] theorem State.setHazard_preg (s : State) (b : Bool) (q : PReg) : (s.setHazard b).preg q = s.preg q := rfl
@[simp] theorem State.setHazard_reg (s : State) (b : Bool) (i : RegNum) : (s.setHazard b).reg i = s.reg i := rfl
@[simp] theorem State.setHazard_userReg (s : State) (b : Bool) (i : RegNum) : (s.setHazard b).userReg i = s.userReg i := rfl
@[simp] theorem State.setHazard_storedReg (s : State) (b : Bool) (i : RegNum) : (s.setHazard b).storedReg i = s.storedReg i := rfl
@[simp] theorem State.setHazard_storedUserReg (s : State) (b : Bool) (i : RegNum) : (s.setHazard b).storedUserReg i = s.storedUserReg i := rfl
@[simp] theorem State.setHazard_accessExists (s : State) (b : Bool) (x : Word) (z : AccessSize) : (s.setHazard b).accessExists x z = s.accessExists x z := rfl
@[simp] theorem State.setHazard_accessDevice (s : State) (b : Bool) (x : Word) (z : AccessSize) : (s.setHazard b).accessDevice x z = s.accessDevice x z := rfl

@[simp] theorem State.setInputs_mode (s : State) (l : List Inputs) : (s.setInputs l).mode = s.mode := rfl
@[simp] theorem State.setInputs_privileged (s : State) (l : List Inputs) : (s.setInputs l).privileged = s.privileged := rfl
@[simp] theorem State.setInputs_thumb (s : State) (l : List Inputs) : (s.setInputs l).thumb = s.thumb := rfl
@[simp] theorem State.setInputs_currentSpsr (s : State) (l : List Inputs) : (s.setInputs l).currentSpsr = s.currentSpsr := rfl
@[simp] theorem State.setInputs_preg (s : State) (l : List Inputs) (q : PReg) : (s.setInputs l).preg q = s.preg q := rfl
@[simp] theorem State.setInputs_reg (s : State) (l : List Inputs) (i : RegNum) : (s.setInputs l).reg i = s.reg i := rfl
@[simp] theorem State.setInputs_userReg (s : State) (l : List Inputs) (i : RegNum) : (s.setInputs l).userReg i = s.userReg i := rfl
@[simp] theorem State.setInputs_storedReg (s : State) (l : List Inputs) (i : RegNum) : (s.setInputs l).storedReg i = s.storedReg i := rfl
@[simp] theorem State.setInputs_storedUserReg (s : State) (l : List Inputs) (i : RegNum) : (s.setInputs l).storedUserReg i = s.storedUserReg i := rfl
@[simp] theorem State.setInputs_accessExists (s : State) (l : List Inputs) (x : Word) (z : AccessSize) : (s.setInputs l).accessExists x z = s.accessExists x z := rfl
@[simp] theorem State.setInputs_accessDevice (s : State) (l : List Inputs) (x : Word) (z : AccessSize) : (s.setInputs l).accessDevice x z = s.accessDevice x z := rfl

@[simp] theorem State.addIo_mode (s : State) (e : IoEvent) : (s.addIo e).mode = s.mode := rfl
@[simp] theorem State.addIo_privileged (s : State) (e : IoEvent) : (s.addIo e).privileged = s.privileged := rfl
@[simp] theorem State.addIo_thumb (s : State) (e : IoEvent) : (s.addIo e).thumb = s.thumb := rfl
@[simp] theorem State.addIo_currentSpsr (s : State) (e : IoEvent) : (s.addIo e).currentSpsr = s.currentSpsr := rfl
@[simp] theorem State.addIo_preg (s : State) (e : IoEvent) (q : PReg) : (s.addIo e).preg q = s.preg q := rfl
@[simp] theorem State.addIo_reg (s : State) (e : IoEvent) (i : RegNum) : (s.addIo e).reg i = s.reg i := rfl
@[simp] theorem State.addIo_userReg (s : State) (e : IoEvent) (i : RegNum) : (s.addIo e).userReg i = s.userReg i := rfl
@[simp] theorem State.addIo_storedReg (s : State) (e : IoEvent) (i : RegNum) : (s.addIo e).storedReg i = s.storedReg i := rfl
@[simp] theorem State.addIo_storedUserReg (s : State) (e : IoEvent) (i : RegNum) : (s.addIo e).storedUserReg i = s.storedUserReg i := rfl
@[simp] theorem State.addIo_accessExists (s : State) (e : IoEvent) (x : Word) (z : AccessSize) : (s.addIo e).accessExists x z = s.accessExists x z := rfl
@[simp] theorem State.addIo_accessDevice (s : State) (e : IoEvent) (x : Word) (z : AccessSize) : (s.addIo e).accessDevice x z = s.accessDevice x z := rfl

@[simp] theorem State.draw_mode (s : State) (n : Nat) : (s.draw n).mode = s.mode := rfl
@[simp] theorem State.draw_privileged (s : State) (n : Nat) : (s.draw n).privileged = s.privileged := rfl
@[simp] theorem State.draw_thumb (s : State) (n : Nat) : (s.draw n).thumb = s.thumb := rfl
@[simp] theorem State.draw_currentSpsr (s : State) (n : Nat) : (s.draw n).currentSpsr = s.currentSpsr := rfl
@[simp] theorem State.draw_preg (s : State) (n : Nat) (q : PReg) : (s.draw n).preg q = s.preg q := rfl
@[simp] theorem State.draw_reg (s : State) (n : Nat) (i : RegNum) : (s.draw n).reg i = s.reg i := rfl
@[simp] theorem State.draw_userReg (s : State) (n : Nat) (i : RegNum) : (s.draw n).userReg i = s.userReg i := rfl
@[simp] theorem State.draw_storedReg (s : State) (n : Nat) (i : RegNum) : (s.draw n).storedReg i = s.storedReg i := rfl
@[simp] theorem State.draw_storedUserReg (s : State) (n : Nat) (i : RegNum) : (s.draw n).storedUserReg i = s.storedUserReg i := rfl
@[simp] theorem State.draw_accessExists (s : State) (n : Nat) (x : Word) (z : AccessSize) : (s.draw n).accessExists x z = s.accessExists x z := rfl
@[simp] theorem State.draw_accessDevice (s : State) (n : Nat) (x : Word) (z : AccessSize) : (s.draw n).accessDevice x z = s.accessDevice x z := rfl

@[simp] theorem State.branchTo_mode (s : State) (v : Word) : (s.branchTo v).mode = s.mode := rfl
@[simp] theorem State.branchTo_privileged (s : State) (v : Word) : (s.branchTo v).privileged = s.privileged := rfl
@[simp] theorem State.branchTo_thumb (s : State) (v : Word) : (s.branchTo v).thumb = s.thumb := rfl
@[simp] theorem State.branchTo_currentSpsr (s : State) (v : Word) : (s.branchTo v).currentSpsr = s.currentSpsr := rfl
@[simp] theorem State.branchTo_preg (s : State) (v : Word) (q : PReg) : (s.branchTo v).preg q = s.preg q := rfl
@[simp] theorem State.branchTo_accessExists (s : State) (v : Word) (x : Word) (z : AccessSize) : (s.branchTo v).accessExists x z = s.accessExists x z := rfl
@[simp] theorem State.branchTo_accessDevice (s : State) (v : Word) (x : Word) (z : AccessSize) : (s.branchTo v).accessDevice x z = s.accessDevice x z := rfl

/-- A physical register after a write of one. -/
@[simp] theorem State.setPReg_preg (s : State) (p : PReg) (v : Word) (q : PReg) :
    (s.setPReg p v).preg q = if p = q then v else s.preg q := by
  simp [State.preg, Vector.getElem_set, Fin.ext_iff]

/-- An SPSR after a write of one. -/
@[simp] theorem State.setSpsr_getElem (s : State) (k j : SpsrIdx) (v : Word) :
    (s.spsr.set k v)[j] = if k = j then v else s.spsr[j] := by
  simp [Vector.getElem_set, Fin.ext_iff]

end Sys2Proof.Machine
end

