-- ==== Sys2Proof/Laws/Ops.lean ====
section
/-! SUPPORT. For each shared operation, once, everything it can do. -/

namespace Sys2Proof.Machine

/-! Modes and banks. -/

@[simp] theorem Mode.ofBits_bits (m : Mode) : Mode.ofBits m.bits = some m := by cases m <;> rfl

@[simp] theorem legalMode_bits (m : Mode) : legalMode m.bits = true := by cases m <;> rfl

/-- The mode read from a number has that number. -/
theorem Mode.bits_of_ofBits {b : BitVec 5} {m : Mode} (h : Mode.ofBits b = some m) : m.bits = b := by
  revert b m; intro b; revert b; decide +revert

/-- The mode of a state whose CPSR holds a mode's number. -/
theorem State.mode_of_bits {s : State} {m : Mode} (h : psrM s.cpsr = m.bits) : s.mode = m := by
  simp [State.mode, h]

/-- A legal CPSR holds the number of the mode. -/
theorem State.psrM_of_legal {s : State} (h : legalMode (psrM s.cpsr) = true) : psrM s.cpsr = s.mode.bits := by
  unfold legalMode at h
  obtain ⟨m, hm⟩ := Option.isSome_iff_exists.1 h
  rw [State.mode_of_bits (Mode.bits_of_ofBits hm).symm, Mode.bits_of_ofBits hm]

/-- Two states with the same M are in the same mode. -/
theorem State.mode_congr {s t : State} (h : psrM t.cpsr = psrM s.cpsr) : t.mode = s.mode := by
  simp [State.mode, h]

/-- In one mode, different register numbers below 15 name different registers. -/
theorem bank_inj (m : Mode) {i j : RegNum} (hi : i ≠ pcNum) (hj : j ≠ pcNum) : bank m i = bank m j ↔ i = j := by
  cases m <;> revert i j <;> decide

/-! Registers. -/

theorem State.reg_of_ne (s : State) {i : RegNum} (h : i ≠ pcNum) : s.reg i = s.preg (bank s.mode i) := if_neg h

@[simp] theorem State.reg_pc (s : State) : s.reg pcNum = s.pc + 8#32 := if_pos rfl

theorem State.setReg_of_ne (s : State) {i : RegNum} (v : Word) (h : i ≠ pcNum) :
    s.setReg i v = s.setPReg (bank s.mode i) v := if_neg h

@[simp] theorem State.setReg_pcNum (s : State) (v : Word) : s.setReg pcNum v = s.branchTo (alignWord v) := if_pos rfl

section setReg
variable (s : State) (i : RegNum) (v : Word)
@[simp] theorem State.setReg_cpsr : (s.setReg i v).cpsr = s.cpsr := by unfold State.setReg; split <;> rfl
@[simp] theorem State.setReg_spsr : (s.setReg i v).spsr = s.spsr := by unfold State.setReg; split <;> rfl
@[simp] theorem State.setReg_mem : (s.setReg i v).mem = s.mem := by unfold State.setReg; split <;> rfl
@[simp] theorem State.setReg_bankHazard : (s.setReg i v).bankHazard = s.bankHazard := by unfold State.setReg; split <;> rfl
@[simp] theorem State.setReg_inputs : (s.setReg i v).inputs = s.inputs := by unfold State.setReg; split <;> rfl
@[simp] theorem State.setReg_io : (s.setReg i v).io = s.io := by unfold State.setReg; split <;> rfl
@[simp] theorem State.setReg_draws : (s.setReg i v).draws = s.draws := by unfold State.setReg; split <;> rfl
@[simp] theorem State.setReg_platform : (s.setReg i v).platform = s.platform := by unfold State.setReg; split <;> rfl
@[simp] theorem State.setReg_mode : (s.setReg i v).mode = s.mode := by unfold State.setReg; split <;> rfl
end setReg

/-- A physical register after `x[i] <- v`. -/
theorem State.setReg_preg (s : State) (i : RegNum) (v : Word) (q : PReg) :
    (s.setReg i v).preg q = if i ≠ pcNum ∧ bank s.mode i = q then v else s.preg q := by
  by_cases h : i = pcNum
  · subst h; simp
  · rw [State.setReg_of_ne _ _ h]; simp [h]

section writeBase
variable (s : State) (n : RegNum) (a : Addressing)
@[simp] theorem State.writeBase_cpsr : (s.writeBase n a).cpsr = s.cpsr := by unfold State.writeBase; split <;> simp
@[simp] theorem State.writeBase_spsr : (s.writeBase n a).spsr = s.spsr := by unfold State.writeBase; split <;> simp
@[simp] theorem State.writeBase_mem : (s.writeBase n a).mem = s.mem := by unfold State.writeBase; split <;> simp
@[simp] theorem State.writeBase_bankHazard : (s.writeBase n a).bankHazard = s.bankHazard := by
  unfold State.writeBase; split <;> simp
@[simp] theorem State.writeBase_inputs : (s.writeBase n a).inputs = s.inputs := by unfold State.writeBase; split <;> simp
@[simp] theorem State.writeBase_io : (s.writeBase n a).io = s.io := by unfold State.writeBase; split <;> simp
@[simp] theorem State.writeBase_draws : (s.writeBase n a).draws = s.draws := by unfold State.writeBase; split <;> simp
@[simp] theorem State.writeBase_platform : (s.writeBase n a).platform = s.platform := by
  unfold State.writeBase; split <;> simp
@[simp] theorem State.writeBase_mode : (s.writeBase n a).mode = s.mode := by unfold State.writeBase; split <;> simp
end writeBase

/-- A physical register after the base is written back, the base not being R15. -/
theorem State.writeBase_preg (s : State) (n : RegNum) (a : Addressing) (q : PReg) :
    (s.writeBase n a).preg q =
      match a.writeback with
      | none => s.preg q
      | some v => if n ≠ pcNum ∧ bank s.mode n = q then v else s.preg q := by
  unfold State.writeBase; split <;> simp_all [State.setReg_preg]

/-- PC and the pipeline after the base is written back, the base not being R15 if it is. -/
theorem State.writeBase_pc (s : State) (n : RegNum) (a : Addressing) (h : a.writeback = none ∨ n ≠ pcNum) :
    (s.writeBase n a).pc = s.pc ∧ (s.writeBase n a).pipe = s.pipe := by
  unfold State.writeBase
  split
  · exact ⟨rfl, rfl⟩
  · rename_i v hv
    have hn : n ≠ pcNum := by rcases h with h | h <;> simp_all
    rw [State.setReg_of_ne _ _ hn]; exact ⟨rfl, rfl⟩

/-! The ends of instructions. -/

/-- Below the top of the address space, `advance` goes to the next word (R28). -/
theorem advance_eq {s : State} (h : s.pc < 0xFFFFFFFC#32) : advance s = .next (s.setPc (s.pc + 4#32)) := by
  unfold advance
  rw [if_neg]
  simp only [BitVec.not_le]; exact h

/-- Everything `advance` can answer. -/
theorem advance_cases {s t : State} (h : advance s = .next t) :
    s.pc < 0xFFFFFFFC#32 ∧ t = s.setPc (s.pc + 4#32) := by
  unfold advance at h
  split at h
  · cases h
  · rename_i hp; exact ⟨BitVec.not_le.1 hp, by cases h; rfl⟩

theorem advance_not_fault (s : State) (f : Fault) : advance s ≠ .fault f := by
  unfold advance; split <;> simp

/-- Everything `finishReg` can answer. -/
theorem finishReg_cases {d : RegNum} {v : Word} {s t : State} (h : finishReg d v s = .next t) :
    (d = pcNum ∧ t = s.branchTo (alignWord v)) ∨
    (d ≠ pcNum ∧ s.pc < 0xFFFFFFFC#32 ∧ t = (s.setPReg (bank s.mode d) v).setPc (s.pc + 4#32)) := by
  unfold finishReg at h
  split at h
  · rename_i hd; subst hd; left; exact ⟨rfl, by simpa using h.symm⟩
  · rename_i hd; right
    rw [State.setReg_of_ne _ _ hd] at h
    have := advance_cases h
    exact ⟨hd, this.1, this.2⟩

theorem finishReg_not_fault (d : RegNum) (v : Word) (s : State) (f : Fault) : finishReg d v s ≠ .fault f := by
  unfold finishReg; split
  · simp
  · exact advance_not_fault _ _

/-- A failed condition only advances (R122). -/
theorem guarded_failed {i : Instr} {s : State} (e : Result) (h : condPassed i.cond s.cpsr = false) :
    guarded i s e = advance s := by simp [guarded, h]

/-- A well-formed instruction whose condition passes has its effect. -/
theorem guarded_passed {i : Instr} {s : State} (e : Result) (h : condPassed i.cond s.cpsr = true)
    (hw : i.wellFormed = true) : guarded i s e = e := by
  have : i.restriction = none := by simpa [Instr.wellFormed] using hw
  simp [guarded, h, this]

/-- A halfword or signed transfer without a restriction (R182): not P = 0 with W = 1, and none of the cases of R181. -/
theorem restrictHs_none {ix : HsIndex} {rn rd : RegNum} {rm : Option RegNum} (h : restrictHs ix rn rd rm = none) :
    ix ≠ .postIndexedW ∧ restrictTransfer ix.writesBack true rn rd rm = none := by
  unfold restrictHs at h
  split at h
  · cases h
  · rename_i hix; exact ⟨hix, h⟩

/-- Everything `guarded` can answer with a next state. -/
theorem guarded_cases {i : Instr} {s t : State} {e : Result} (h : guarded i s e = .next t) :
    (condPassed i.cond s.cpsr = false ∧ advance s = .next t) ∨
    (condPassed i.cond s.cpsr = true ∧ i.wellFormed = true ∧ e = .next t) := by
  unfold guarded at h
  split at h
  · rename_i hc
    split at h
    · rename_i hr; right; exact ⟨hc, by simp [Instr.wellFormed, hr], h⟩
    · cases h
  · rename_i hc; left; exact ⟨by simpa using hc, h⟩

/-! Memory accesses. -/

/-- A read of existing bytes, all of memory (R61). -/
theorem memRead_memory {s : State} {a : Word} {n : AccessSize} (he : s.accessExists a n = true)
    (hd : s.accessDevice a n = false) : memRead s a n = some (s.mem.readSize a n, s) := by
  simp [memRead, he, hd]

/-- A read of existing bytes, some of a device (R69). -/
theorem memRead_device {s : State} {a : Word} {n : AccessSize} (he : s.accessExists a n = true)
    (hd : s.accessDevice a n = true) :
    memRead s a n = some (Config.deviceRead s.io a n &&& sizeMask n, s.addIo (.read a n)) := by
  simp [memRead, he, hd]

/-- A read of bytes that do not all exist (R61, R71). -/
theorem memRead_absent {s : State} {a : Word} {n : AccessSize} (he : s.accessExists a n = false) :
    memRead s a n = none := by simp [memRead, he]

/-- Everything `memRead` can answer. -/
theorem memRead_cases {s : State} {a : Word} {n : AccessSize} {r : Word × State} (h : memRead s a n = some r) :
    s.accessExists a n = true ∧
    ((s.accessDevice a n = false ∧ r = (s.mem.readSize a n, s)) ∨
     (s.accessDevice a n = true ∧ r = (Config.deviceRead s.io a n &&& sizeMask n, s.addIo (.read a n)))) := by
  unfold memRead at h
  split at h
  · cases h
  · rename_i he
    refine ⟨by simpa using he, ?_⟩
    split at h
    · rename_i hd; right; exact ⟨hd, by simpa using h.symm⟩
    · rename_i hd; left; exact ⟨by simpa using hd, by simpa using h.symm⟩

/-- A write of existing bytes, all of memory (R61). -/
theorem memWrite_memory {s : State} {a v : Word} {n : AccessSize} (he : s.accessExists a n = true)
    (hd : s.accessDevice a n = false) : memWrite s a n v = some (s.setMem (s.mem.writeSize a v n)) := by
  simp [memWrite, he, hd]

/-- A write of existing bytes, some of a device (R69). -/
theorem memWrite_device {s : State} {a v : Word} {n : AccessSize} (he : s.accessExists a n = true)
    (hd : s.accessDevice a n = true) : memWrite s a n v = some (s.addIo (.write a n (v &&& sizeMask n))) := by
  simp [memWrite, he, hd]

/-- A write of bytes that do not all exist (R61, R71). -/
theorem memWrite_absent {s : State} {a v : Word} {n : AccessSize} (he : s.accessExists a n = false) :
    memWrite s a n v = none := by simp [memWrite, he]

/-- Everything `memWrite` can answer. -/
theorem memWrite_cases {s t : State} {a v : Word} {n : AccessSize} (h : memWrite s a n v = some t) :
    s.accessExists a n = true ∧
    ((s.accessDevice a n = false ∧ t = s.setMem (s.mem.writeSize a v n)) ∨
     (s.accessDevice a n = true ∧ t = s.addIo (.write a n (v &&& sizeMask n)))) := by
  unfold memWrite at h
  split at h
  · cases h
  · rename_i he
    refine ⟨by simpa using he, ?_⟩
    split at h
    · rename_i hd; right; exact ⟨hd, by simpa using h.symm⟩
    · rename_i hd; left; exact ⟨by simpa using hd, by simpa using h.symm⟩

/-- The addresses of an access are its bytes. -/
theorem mem_accessAddrs {a : Word} {n : AccessSize} {b : Nat} : b ∈ accessAddrs a n ↔ ∃ k < n.bytes, b = byteAddr a k := by
  simp [accessAddrs, eq_comm]

/-! Exceptions. -/

section entry
variable (s : State) (e : Exc)

theorem State.setModeSpsr_eq (m : Mode) (v : Word) {k : SpsrIdx} (h : m.spsrIdx = some k) :
    s.setModeSpsr m v = s.setSpsr k v := by simp [State.setModeSpsr, h]

@[simp] theorem State.takeException_pc : (s.takeException e).pc = e.vector := rfl
@[simp] theorem State.takeException_pipe : (s.takeException e).pipe = none := rfl
@[simp] theorem State.takeException_cpsr : (s.takeException e).cpsr =
    psrEnter s.cpsr (e.newF s.platform (psrF s.cpsr)) e.mode.bits := rfl
@[simp] theorem State.takeException_mem : (s.takeException e).mem = s.mem := by cases e <;> rfl
@[simp] theorem State.takeException_bankHazard : (s.takeException e).bankHazard = s.bankHazard := by cases e <;> rfl
@[simp] theorem State.takeException_inputs : (s.takeException e).inputs = s.inputs := by cases e <;> rfl
@[simp] theorem State.takeException_io : (s.takeException e).io = s.io := by cases e <;> rfl
@[simp] theorem State.takeException_draws : (s.takeException e).draws = s.draws := by cases e <;> rfl
@[simp] theorem State.takeException_platform : (s.takeException e).platform = s.platform := by cases e <;> rfl
@[simp] theorem State.takeException_mode : (s.takeException e).mode = e.mode := by
  simp [State.mode]

/-- The registers after an exception entry: the link register of the new mode, nothing else (R256). -/
theorem State.takeException_preg (q : PReg) : (s.takeException e).preg q =
    if bank e.mode 14#4 = q then s.pc + e.linkOffset s.thumb else s.preg q := by
  rw [← State.setPReg_preg]; cases e <;> rfl

/-- The SPSRs after an exception entry: that of the new mode holds the old CPSR (R256). -/
theorem State.takeException_spsr (j : SpsrIdx) : (s.takeException e).spsr[j] =
    if e.mode.spsrIdx = some j then s.cpsr else s.spsr[j] := by
  cases e <;> simp only [State.takeException, Exc.mode, State.setModeSpsr, Mode.spsrIdx, State.branchTo_spsr,
    State.setCpsr_spsr, State.setSpsr_spsr, State.setSpsr_getElem, State.setPReg_spsr, Option.some.injEq]

end entry

/-! A reset during a run (R260, R301, log 11). -/

section reset
variable (s : State)
@[simp] theorem State.takeReset_pc : s.takeReset.pc = 0#32 := rfl
@[simp] theorem State.takeReset_pipe : s.takeReset.pipe = none := rfl
@[simp] theorem State.takeReset_mem : s.takeReset.mem = s.mem := rfl
@[simp] theorem State.takeReset_bankHazard : s.takeReset.bankHazard = s.bankHazard := rfl
@[simp] theorem State.takeReset_inputs : s.takeReset.inputs = s.inputs := rfl
@[simp] theorem State.takeReset_io : s.takeReset.io = s.io := rfl
@[simp] theorem State.takeReset_platform : s.takeReset.platform = s.platform := rfl
@[simp] theorem State.takeReset_draws : s.takeReset.draws = s.draws + 36 := rfl
theorem State.takeReset_cpsr : s.takeReset.cpsr = psrSetFlags (psrEnter s.cpsr true Mode.svc.bits)
    (psrN (Config.freeWord (s.draws + 35))) (psrZ (Config.freeWord (s.draws + 35)))
    (psrC (Config.freeWord (s.draws + 35))) (psrV (Config.freeWord (s.draws + 35))) := rfl
theorem State.takeReset_spsr (k : SpsrIdx) :
    s.takeReset.spsr[k] = Config.freeWord (s.draws + 30 + k) &&& psrNamed := by
  show (freeSpsrs (s.draws + 30))[k] = _
  unfold freeSpsrs; simp
end reset

/-- Everything an exception return can answer (R275). -/
theorem exceptionReturn_cases {v : Word} {s t : State} (h : exceptionReturn v s = .next t) :
    ∃ w, s.currentSpsr = some w ∧ legalMode (psrM w) = true ∧
      t = (s.setCpsr w).branchTo (if psrT w then alignHalf v else alignWord v) := by
  unfold exceptionReturn at h
  split at h
  · cases h
  · rename_i w hw
    split at h
    · rename_i hl; exact ⟨w, hw, hl, by simpa using h.symm⟩
    · cases h

end Sys2Proof.Machine
end

