-- ==== Sys2Proof/Laws/Exec.lean ====
section
/-! SUPPORT. For the shared operation of each family, once, everything it can answer with a next state; and what the walks over
lists of a block transfer leave unchanged. -/

namespace Sys2Proof.Machine

/-! Data processing. -/

@[simp] theorem State.setAluFlags_preg (s : State) (r : AluResult) (q : PReg) : (s.setAluFlags r).preg q = s.preg q := rfl
@[simp] theorem State.setAluFlags_cpsr (s : State) (r : AluResult) :
    (s.setAluFlags r).cpsr = psrSetFlags s.cpsr r.n r.z r.c r.v := rfl
@[simp] theorem State.setAluFlags_pc (s : State) (r : AluResult) : (s.setAluFlags r).pc = s.pc := rfl
@[simp] theorem State.setAluFlags_mode (s : State) (r : AluResult) : (s.setAluFlags r).mode = s.mode :=
  State.mode_congr (by simp)

/-- `WriteResult` (R148, R149). -/
theorem writeResult_cases {d : RegNum} {sf : Bool} {r : AluResult} {s t : State} (h : writeResult d sf r s = .next t) :
    (d = pcNum ∧ sf = true ∧ exceptionReturn r.value s = .next t) ∨
    (d = pcNum ∧ sf = false ∧ t = s.branchTo (alignWord r.value)) ∨
    (d ≠ pcNum ∧ s.pc < 0xFFFFFFFC#32 ∧
      t = ((if sf then s.setAluFlags r else s).setPReg (bank s.mode d) r.value).setPc (s.pc + 4#32)) := by
  unfold writeResult at h
  by_cases hd : d = pcNum
  · subst hd
    cases sf
    · right; left; exact ⟨rfl, rfl, by simpa using h.symm⟩
    · left; exact ⟨rfl, rfl, by simpa using h⟩
  · right; right
    rw [if_neg hd, State.setReg_of_ne _ _ hd] at h
    obtain ⟨hp, rfl⟩ := advance_cases h
    cases sf
    · exact ⟨hd, hp, rfl⟩
    · refine ⟨hd, hp, ?_⟩
      simp

/-- The four tests (R159 to R162). -/
theorem testOp_cases {f : Alu} {a : Word} {o : Operand2} {s t : State} (h : testOp f a o s = .next t) :
    s.pc < 0xFFFFFFFC#32 ∧ t = (s.setAluFlags (s.alu f a o)).setPc (s.pc + 4#32) := advance_cases h

/-! Multiplication. -/

@[simp] theorem State.setMulFlags_mode (s : State) (r : Word) : (s.setMulFlags r).mode = s.mode :=
  State.mode_congr (by simp [State.setMulFlags])
@[simp] theorem State.setMullFlags_mode (s : State) (p : BitVec 64) : (s.setMullFlags p).mode = s.mode :=
  State.mode_congr (by simp [State.setMullFlags])

@[simp] theorem State.setMulFlags_pc (s : State) (r : Word) : (s.setMulFlags r).pc = s.pc := rfl
@[simp] theorem State.setMullFlags_pc (s : State) (p : BitVec 64) : (s.setMullFlags p).pc = s.pc := rfl

/-- MUL and MLA (R241, R242). -/
theorem mulOp_cases {sf : Bool} {rd : RegNum} {r : Word} {s t : State} (hd : rd ≠ pcNum) (h : mulOp sf rd r s = .next t) :
    s.pc < 0xFFFFFFFC#32 ∧
      t = ((if sf then s.setMulFlags r else s).setPReg (bank s.mode rd) r).setPc (s.pc + 4#32) := by
  rcases finishReg_cases h with ⟨h1, -⟩ | ⟨-, hp, rfl⟩
  · exact absurd h1 hd
  · cases sf
    · exact ⟨hp, rfl⟩
    · exact ⟨hp, by simp only [if_true, State.setMulFlags_mode, State.setMulFlags_pc]⟩

/-- The long multiplies (R243 to R246). -/
theorem mullOp_cases {sf : Bool} {hi lo : RegNum} {p : BitVec 64} {s t : State} (h1 : hi ≠ pcNum) (h2 : lo ≠ pcNum)
    (h : mullOp sf hi lo p s = .next t) :
    s.pc < 0xFFFFFFFC#32 ∧
      t = (((if sf then s.setMullFlags p else s).setPReg (bank s.mode hi) (p.extractLsb' 32 32)).setPReg
        (bank s.mode lo) (p.extractLsb' 0 32)).setPc (s.pc + 4#32) := by
  rw [mullOp, State.setReg_of_ne _ _ h1] at h
  rcases finishReg_cases h with ⟨h3, -⟩ | ⟨-, hp, rfl⟩
  · exact absurd h3 h2
  · cases sf
    · exact ⟨hp, by simp⟩
    · exact ⟨hp, by simp only [if_true, State.setMullFlags_mode, State.setPReg_mode, State.setPReg_pc, State.setMullFlags_pc]⟩

/-! Single transfers. -/

/-- A read leaves the state as it was, but for the device history. -/
theorem memRead_state {s : State} {a : Word} {n : AccessSize} {r : Word × State} (h : memRead s a n = some r) :
    r.2 = s ∨ r.2 = s.addIo (.read a n) := by
  rcases (memRead_cases h).2 with ⟨-, rfl⟩ | ⟨-, rfl⟩
  · exact .inl rfl
  · exact .inr rfl

/-- The five loads leave the state as it was, but for the device history. -/
theorem load_state {ld : Load} (hl : ld ∈ [loadWord, loadByte, loadHalf, loadSignedByte, loadSignedHalf]) {s : State} {a : Word}
    {r : Word × State} (h : ld s a = some r) : r.2 = s ∨ ∃ e, r.2 = s.addIo e := by
  have key : ∀ {b n} {q : Word × State}, memRead s b n = some q → q.2 = s ∨ ∃ e, q.2 = s.addIo e := fun hq => by
    rcases memRead_state hq with h | h
    · exact .inl h
    · exact .inr ⟨_, h⟩
  simp only [List.mem_cons, List.not_mem_nil, or_false] at hl
  rcases hl with rfl | rfl | rfl | rfl | rfl
  · obtain ⟨q, hq, rfl⟩ := Option.map_eq_some_iff.1 h; exact key (q := q) hq
  · exact key h
  · exact key h
  · obtain ⟨q, hq, rfl⟩ := Option.map_eq_some_iff.1 h; exact key (q := q) hq
  · obtain ⟨q, hq, rfl⟩ := Option.map_eq_some_iff.1 h; exact key (q := q) hq

/-- The three stores change memory by one wide write, or the device history. -/
theorem store_state {st : Store} (hs : st ∈ [storeWord, storeByte, storeHalf]) {s t : State} {a v : Word}
    (h : st s a v = some t) : (∃ b n, t = s.setMem (s.mem.writeSize b v n)) ∨ ∃ e, t = s.addIo e := by
  have key : ∀ {b n}, memWrite s b n v = some t → (∃ b n, t = s.setMem (s.mem.writeSize b v n)) ∨ ∃ e, t = s.addIo e :=
    fun hq => by
      rcases (memWrite_cases hq).2 with ⟨-, h⟩ | ⟨-, h⟩
      · exact .inl ⟨_, _, h⟩
      · exact .inr ⟨_, h⟩
  simp only [List.mem_cons, List.not_mem_nil, or_false] at hs
  rcases hs with rfl | rfl | rfl <;> exact key h

/-- A load: an abort, or the base and then Rd (R183, R184). -/
theorem loadOp_cases {ld : Load} {n d : RegNum} {a : Addressing} {s t : State} (h : loadOp ld n d a s = .next t) :
    (ld s a.addr = none ∧ t = (if s.platform.abortBaseUpdated then s.writeBase n a else s).takeException .dataAbort) ∨
    (∃ r, ld s a.addr = some r ∧ finishReg d r.1 (r.2.writeBase n a) = .next t) := by
  unfold loadOp at h
  split at h
  · rename_i hn; left; exact ⟨hn, (Host.Outcome.next.inj h).symm⟩
  · rename_i r hr; right; exact ⟨r, hr, h⟩

/-- A store: an abort, or the base (R183, R186). -/
theorem storeOp_cases {st : Store} {n : RegNum} {v : Word} {a : Addressing} {s t : State} (h : storeOp st n v a s = .next t) :
    (st s a.addr v = none ∧ t = (if s.platform.abortBaseUpdated then s.writeBase n a else s).takeException .dataAbort) ∨
    (∃ u, st s a.addr v = some u ∧ advance (u.writeBase n a) = .next t) := by
  unfold storeOp at h
  split at h
  · rename_i hn; left; exact ⟨hn, (Host.Outcome.next.inj h).symm⟩
  · rename_i u hu; right; exact ⟨u, hu, h⟩

/-- A swap: an abort of the read, an abort of the write, or Rd (R198). -/
theorem swapOp_cases {ld : Load} {st : Store} {n d m : RegNum} {s t : State} (h : swapOp ld st n d m s = .next t) :
    (ld s (s.reg n) = none ∧ t = s.takeException .dataAbort) ∨
    (∃ r, ld s (s.reg n) = some r ∧ st r.2 (s.reg n) (s.reg m) = none ∧ t = r.2.takeException .dataAbort) ∨
    (∃ r u, ld s (s.reg n) = some r ∧ st r.2 (s.reg n) (s.reg m) = some u ∧ finishReg d r.1 u = .next t) := by
  unfold swapOp at h
  split at h
  · rename_i hn; left; exact ⟨hn, (Host.Outcome.next.inj h).symm⟩
  · rename_i r hr
    split at h
    · rename_i hn; right; left; exact ⟨r, hr, hn, (Host.Outcome.next.inj h).symm⟩
    · rename_i u hu; right; right; exact ⟨r, u, hr, hu, h⟩

/-- A halfword access that answers a next state is at an even address. -/
theorem evenOnly_cases {a : Addressing} {e : Result} {t : State} (h : evenOnly a e = .next t) :
    bitAt a.addr 0 = false ∧ e = .next t := by
  unfold evenOnly at h
  split at h
  · cases h
  · rename_i hb; exact ⟨by simpa using hb, h⟩

/-! Status registers and BX. -/

theorem Mode.spsrIdx_none (m : Mode) : m.spsrIdx = none ↔ m = .usr ∨ m = .sys := by cases m <;> simp [Mode.spsrIdx]

theorem State.currentSpsr_some {s : State} {k : SpsrIdx} (h : s.mode.spsrIdx = some k) : s.currentSpsr = some s.spsr[k] := by
  simp [State.currentSpsr, h]

theorem State.currentSpsr_none {s : State} (h : s.mode.spsrIdx = none) : s.currentSpsr = none := by
  simp [State.currentSpsr, h]

/-- The SPSR of the current mode is one of the five. -/
theorem State.currentSpsr_cases {s : State} {w : Word} (h : s.currentSpsr = some w) :
    ∃ k, s.mode.spsrIdx = some k ∧ w = s.spsr[k] := by
  unfold State.currentSpsr at h
  split at h
  · cases h
  · rename_i k hk; exact ⟨k, hk, by simpa using h.symm⟩

/-- MRS (R221). -/
theorem mrsOp_cases {spsr : Bool} {d : RegNum} {s t : State} (h : mrsOp spsr d s = .next t) :
    ∃ w, ((spsr = false ∧ w = s.cpsr) ∨ (spsr = true ∧ s.currentSpsr = some w)) ∧
      finishReg d (psrRead w (Config.freeWord s.draws)) (s.draw 1) = .next t := by
  unfold mrsOp at h
  cases spsr
  · exact ⟨_, .inl ⟨rfl, rfl⟩, h⟩
  · simp only [if_true] at h
    split at h
    · cases h
    · rename_i w hw; exact ⟨w, .inr ⟨rfl, hw⟩, h⟩

/-- MSR to CPSR (R222, R225, R226). -/
theorem msrCpsr_cases {mask : BitVec 4} {v : Word} {s t : State} (h : msrCpsr mask v s = .next t) :
    psrT (psrWrite s.cpsr v (msrMask mask s)) = psrT s.cpsr ∧
    (field (msrMask mask s) 0 5 = 0#5 ∨ legalMode (psrM (psrWrite s.cpsr v (msrMask mask s))) = true) ∧
    s.pc < 0xFFFFFFFC#32 ∧ t = (s.setCpsr (psrWrite s.cpsr v (msrMask mask s))).setPc (s.pc + 4#32) := by
  simp only [msrCpsr] at h
  split at h
  · cases h
  · rename_i hT
    split at h
    · cases h
    · rename_i hM
      obtain ⟨hp, rfl⟩ := advance_cases h
      refine ⟨by simpa using hT, ?_, hp, rfl⟩
      by_cases h0 : field (msrMask mask s) 0 5 = 0#5
      · exact .inl h0
      · right; by_contra hc; exact hM ⟨h0, by simpa using hc⟩

/-- MSR to SPSR (R222, R224). -/
theorem msrSpsr_cases {mask : BitVec 4} {v : Word} {s t : State} (h : msrSpsr mask v s = .next t) :
    ∃ k, s.mode.spsrIdx = some k ∧ s.pc < 0xFFFFFFFC#32 ∧
      t = (s.setSpsr k (psrWrite s.spsr[k] v (psrByteMask mask))).setPc (s.pc + 4#32) := by
  unfold msrSpsr at h
  split at h
  · cases h
  · rename_i k hk
    obtain ⟨hp, rfl⟩ := advance_cases h
    exact ⟨k, hk, hp, rfl⟩

/-- BX (R134). -/
theorem bxOp_cases {v : Word} {s t : State} (h : bxOp v s = .next t) :
    field v 0 2 ≠ 0b10#2 ∧ t = (s.setCpsr (psrSetT s.cpsr (bitAt v 0))).branchTo (alignHalf v) := by
  unfold bxOp at h
  split at h
  · cases h
  · rename_i hb; exact ⟨hb, (Host.Outcome.next.inj h).symm⟩

/-! Branches. -/

/-- B and BL, after the link (R131, R132): the target lies below 2^32, and PC is there. -/
theorem branchOp_cases {imm24 : BitVec 24} {s t : State} (h : branchOp imm24 s = .next t) :
    (s.pc.toNat : Int) + 8 + 4 * imm24.toInt < 2 ^ 32 ∧ t = s.branchTo (branchTarget s imm24) := by
  unfold branchOp at h
  split at h
  · cases h
  · rename_i hb
    exact ⟨by simpa [branchPastTop] using hb, (Host.Outcome.next.inj h).symm⟩

/-! Block transfers. -/

/-- The two states agree on every register, PC, status, the pipeline, the inputs, the free values drawn and the platform. -/
def SameButMemory (s t : State) : Prop :=
  t.regs = s.regs ∧ t.pc = s.pc ∧ t.cpsr = s.cpsr ∧ t.spsr = s.spsr ∧ t.pipe = s.pipe ∧ t.bankHazard = s.bankHazard ∧
  t.inputs = s.inputs ∧ t.draws = s.draws ∧ t.platform = s.platform

theorem SameButMemory.refl (s : State) : SameButMemory s s := ⟨rfl, rfl, rfl, rfl, rfl, rfl, rfl, rfl, rfl⟩

theorem SameButMemory.trans {s t u : State} (h : SameButMemory s t) (k : SameButMemory t u) : SameButMemory s u := by
  obtain ⟨h1, h2, h3, h4, h5, h6, h7, h8, h9⟩ := h
  obtain ⟨k1, k2, k3, k4, k5, k6, k7, k8, k9⟩ := k
  exact ⟨k1.trans h1, k2.trans h2, k3.trans h3, k4.trans h4, k5.trans h5, k6.trans h6, k7.trans h7, k8.trans h8, k9.trans h9⟩

theorem SameButMemory.mode {s t : State} (h : SameButMemory s t) : t.mode = s.mode := State.mode_congr (by rw [h.2.2.1])

theorem SameButMemory.preg {s t : State} (h : SameButMemory s t) (q : PReg) : t.preg q = s.preg q := by
  simp [State.preg, h.1]

/-- A block read leaves the state as it was, but for the device history. -/
theorem readBlock_state (l : List Word) (s : State) :
    SameButMemory s (readBlock l s).2 ∧ (readBlock l s).2.mem = s.mem := by
  induction l generalizing s with
  | nil => exact ⟨SameButMemory.refl s, rfl⟩
  | cons a l ih =>
    rw [readBlock]
    split
    · exact ⟨SameButMemory.refl s, rfl⟩
    · rename_i r hr
      obtain ⟨h1, h2⟩ := ih r.2
      rcases memRead_state hr with h | h
      · rw [h] at h1 h2 ⊢; exact ⟨h1, h2⟩
      · rw [h] at h1 h2 ⊢; exact ⟨h1, h2⟩

/-- A block write changes memory and the device history alone, and keeps memory's canonical form. -/
theorem writeBlock_state (l : List (Word × Word)) (s : State) :
    SameButMemory s (writeBlock l s).2 ∧ (s.mem.wf = true → (writeBlock l s).2.mem.wf = true) := by
  induction l generalizing s with
  | nil => exact ⟨SameButMemory.refl s, id⟩
  | cons a l ih =>
    obtain ⟨a, v⟩ := a
    rw [writeBlock]
    split
    · exact ⟨SameButMemory.refl s, id⟩
    · rename_i t ht
      obtain ⟨h1, h2⟩ := ih t
      rcases (memWrite_cases ht).2 with ⟨-, rfl⟩ | ⟨-, rfl⟩
      · exact ⟨h1, fun h => h2 (by simpa using Memory.wf_writeSize s.mem a v .word h)⟩
      · exact ⟨h1, fun h => h2 h⟩

/-- A walk over registers writes registers alone. -/
def OnlyRegs (s t : State) : Prop :=
  t.pc = s.pc ∧ t.cpsr = s.cpsr ∧ t.spsr = s.spsr ∧ t.mem = s.mem ∧ t.pipe = s.pipe ∧ t.bankHazard = s.bankHazard ∧
  t.inputs = s.inputs ∧ t.io = s.io ∧ t.platform = s.platform

theorem OnlyRegs.mode {s t : State} (h : OnlyRegs s t) : t.mode = s.mode := State.mode_congr (by rw [h.2.1])

theorem loadRegs_onlyRegs (m : Mode) (l : List (RegNum × Word)) (s : State) : OnlyRegs s (loadRegs m l s) := by
  induction l generalizing s with
  | nil => exact ⟨rfl, rfl, rfl, rfl, rfl, rfl, rfl, rfl, rfl⟩
  | cons a l ih =>
    obtain ⟨i, v⟩ := a
    rw [loadRegs]
    have := ih (if i = pcNum then s else s.setPReg (bank m i) v)
    split at this <;> rename_i hi
    · rw [if_pos hi]; exact this
    · rw [if_neg hi]; exact this

/-- The registers a load walk does not name are unchanged (R213). -/
theorem loadRegs_preg_other (m : Mode) (l : List (RegNum × Word)) (s : State) (q : PReg)
    (h : ∀ c ∈ l, c.1 ≠ pcNum → bank m c.1 ≠ q) : (loadRegs m l s).preg q = s.preg q := by
  induction l generalizing s with
  | nil => rfl
  | cons a l ih =>
    obtain ⟨i, v⟩ := a
    rw [loadRegs, ih _ fun c hc => h c (List.mem_cons_of_mem _ hc)]
    split
    · rfl
    · rename_i hi
      rw [State.setPReg_preg, if_neg (h (i, v) List.mem_cons_self hi)]

/-- A register a load walk names once holds its word (R213). -/
theorem loadRegs_preg_same (m : Mode) (l : List (RegNum × Word)) (s : State) (hd : l.Pairwise fun c d => c.1 ≠ d.1)
    {i : RegNum} {v : Word} (hc : (i, v) ∈ l) (hi : i ≠ pcNum) : (loadRegs m l s).preg (bank m i) = v := by
  induction l generalizing s with
  | nil => cases hc
  | cons a l ih =>
    obtain ⟨hd1, hd2⟩ := List.pairwise_cons.1 hd
    rcases List.mem_cons.1 hc with ha | ha
    · subst ha
      rw [loadRegs, if_neg hi, loadRegs_preg_other, State.setPReg_preg, if_pos rfl]
      intro c hc hpc
      rw [Ne, bank_inj m hpc hi]
      exact (hd1 c hc).symm
    · obtain ⟨j, w⟩ := a
      exact ih _ hd2 ha

theorem scrambleRegs_onlyRegs (m : Mode) (b : PReg) (l : List RegNum) (s : State) : OnlyRegs s (scrambleRegs m b l s) := by
  induction l generalizing s with
  | nil => exact ⟨rfl, rfl, rfl, rfl, rfl, rfl, rfl, rfl, rfl⟩
  | cons i l ih =>
    rw [scrambleRegs]
    have := ih (if i = pcNum ∨ bank m i = b then s else (s.setPReg (bank m i) (Config.freeWord s.draws)).draw 1)
    split at this <;> rename_i hi
    · rw [if_pos hi]; exact this
    · rw [if_neg hi]; exact this

/-- The base and the registers not listed survive an aborted LDM (R217(e)). -/
theorem scrambleRegs_preg (m : Mode) (b : PReg) (l : List RegNum) (s : State) (q : PReg)
    (h : q = b ∨ ∀ i ∈ l, i ≠ pcNum → bank m i ≠ q) : (scrambleRegs m b l s).preg q = s.preg q := by
  induction l generalizing s with
  | nil => rfl
  | cons i l ih =>
    rw [scrambleRegs, ih]
    · split
      · rfl
      · rename_i hi
        rw [not_or] at hi
        rw [State.draw_preg, State.setPReg_preg, if_neg]
        rcases h with rfl | h
        · exact hi.2
        · exact h i List.mem_cons_self hi.1
    · rcases h with h | h
      · exact .inl h
      · exact .inr fun j hj => h j (List.mem_cons_of_mem _ hj)

theorem blockTargets_length (p u w : Bool) (n : RegNum) (list : BitVec 16) (s : State) :
    (blockTargets p u w n list s).length = (regList list).length := by simp [blockTargets, blockAddrs]

/-- A successful block read gives one word for each address. -/
theorem readBlock_length {l : List Word} {s : State} {vals : List Word} (h : (readBlock l s).1 = some vals) :
    vals.length = l.length := by
  induction l generalizing s vals with
  | nil => simp [readBlock] at h; simp [← h]
  | cons a l ih =>
    rw [readBlock] at h
    split at h
    · cases h
    · rename_i r hr
      obtain ⟨vs, hv, rfl⟩ := Option.map_eq_some_iff.1 h
      simp [ih hv]

/-- LDM: an abort, or its end (R213 to R215, R217). -/
theorem ldmOp_cases {p u sf w : Bool} {n : RegNum} {list : BitVec 16} {s t : State} (h : ldmOp p u sf w n list s = .next t) :
    (sf = true → ∃ k, s.mode.spsrIdx = some k) ∧
    (((readBlock (blockTargets p u w n list s) s).1 = none ∧
        abortTransfer n (blockAddressing p u w n list s)
          (scrambleRegs (if sf && !list.getLsbD 15 then .usr else s.mode) (bank s.mode n) (regList list)
            (readBlock (blockTargets p u w n list s) s).2) = .next t) ∨
      ∃ vals, (readBlock (blockTargets p u w n list s) s).1 = some vals ∧
        finishLdm sf n list (if sf && !list.getLsbD 15 then .usr else s.mode) (blockAddressing p u w n list s) vals
          (readBlock (blockTargets p u w n list s) s).2 = .next t) := by
  simp only [ldmOp] at h
  split at h
  · split at h <;> cases h
  · rename_i hs
    refine ⟨fun hsf => ?_, ?_⟩
    · subst hsf
      cases hk : s.mode.spsrIdx with
      | none => simp [State.currentSpsr_none hk] at hs
      | some k => exact ⟨k, rfl⟩
    · generalize hr : readBlock (blockTargets p u w n list s) s = r at h ⊢
      obtain ⟨o, u'⟩ := r
      cases o with
      | none => exact .inl ⟨rfl, h⟩
      | some vals => exact .inr ⟨vals, rfl, h⟩

/-- STM: an abort, or the base (R215 to R217). -/
theorem stmOp_cases {p u sf w : Bool} {n : RegNum} {list : BitVec 16} {s t : State} (h : stmOp p u sf w n list s = .next t) :
    (sf = true → ∃ k, s.mode.spsrIdx = some k) ∧
    (((writeBlock (storedWords p u sf w n list s) s).1 = false ∧
        abortTransfer n (blockAddressing p u w n list s) (writeBlock (storedWords p u sf w n list s) s).2 = .next t) ∨
      ((writeBlock (storedWords p u sf w n list s) s).1 = true ∧
        advance ((writeBlock (storedWords p u sf w n list s) s).2.writeBase n (blockAddressing p u w n list s)) = .next t)) := by
  simp only [stmOp] at h
  split at h
  · cases h
  · rename_i hs
    refine ⟨fun hsf => ?_, ?_⟩
    · subst hsf
      cases hk : s.mode.spsrIdx with
      | none => simp [State.currentSpsr_none hk] at hs
      | some k => exact ⟨k, rfl⟩
    · generalize hr : writeBlock (storedWords p u sf w n list s) s = r at h ⊢
      obtain ⟨o, u'⟩ := r
      cases o with
      | false => exact .inl ⟨rfl, h⟩
      | true => exact .inr ⟨rfl, h⟩

/-! The fetch. -/

section beginStep
variable (s : State)
@[simp] theorem State.beginStep_regs : s.beginStep.regs = s.regs := rfl
@[simp] theorem State.beginStep_preg (q : PReg) : s.beginStep.preg q = s.preg q := rfl
@[simp] theorem State.beginStep_pc : s.beginStep.pc = s.pc := rfl
@[simp] theorem State.beginStep_cpsr : s.beginStep.cpsr = s.cpsr := rfl
@[simp] theorem State.beginStep_spsr : s.beginStep.spsr = s.spsr := rfl
@[simp] theorem State.beginStep_mem : s.beginStep.mem = s.mem := rfl
@[simp] theorem State.beginStep_pipe : s.beginStep.pipe = s.pipe := rfl
@[simp] theorem State.beginStep_bankHazard : s.beginStep.bankHazard = false := rfl
@[simp] theorem State.beginStep_inputs : s.beginStep.inputs = s.inputs.tail := rfl
@[simp] theorem State.beginStep_io : s.beginStep.io = s.io := rfl
@[simp] theorem State.beginStep_draws : s.beginStep.draws = s.draws := rfl
@[simp] theorem State.beginStep_platform : s.beginStep.platform = s.platform := rfl
end beginStep

/-- A fetch changes the device history and the pipeline alone (R62, R69). -/
theorem fetchAt_state (s : State) (a : Word) : SameButMemory s (fetchAt s a).2 ∧ (fetchAt s a).2.mem = s.mem := by
  unfold fetchAt
  split
  · exact ⟨SameButMemory.refl s, rfl⟩
  · rename_i r hr
    rcases memRead_state hr with h | h <;> rw [h] <;> exact ⟨SameButMemory.refl s, rfl⟩

theorem fetchNext_state (s : State) : (fetchNext s).2.regs = s.regs ∧ (fetchNext s).2.pc = s.pc ∧
    (fetchNext s).2.cpsr = s.cpsr ∧ (fetchNext s).2.spsr = s.spsr ∧ (fetchNext s).2.mem = s.mem ∧
    (fetchNext s).2.bankHazard = s.bankHazard ∧ (fetchNext s).2.inputs = s.inputs ∧ (fetchNext s).2.draws = s.draws ∧
    (fetchNext s).2.platform = s.platform := by
  have key : ∀ s' : State, SameButMemory s s' → s'.mem = s.mem → ∀ p, (s'.setPipe p).regs = s.regs ∧ (s'.setPipe p).pc = s.pc ∧
      (s'.setPipe p).cpsr = s.cpsr ∧ (s'.setPipe p).spsr = s.spsr ∧ (s'.setPipe p).mem = s.mem ∧
      (s'.setPipe p).bankHazard = s.bankHazard ∧ (s'.setPipe p).inputs = s.inputs ∧ (s'.setPipe p).draws = s.draws ∧
      (s'.setPipe p).platform = s.platform :=
    fun s' ⟨h1, h2, h3, h4, _, h6, h7, h8, h9⟩ hm p => ⟨h1, h2, h3, h4, hm, h6, h7, h8, h9⟩
  unfold fetchNext
  split
  · exact key _ (fetchAt_state s _).1 (fetchAt_state s _).2 _
  · have h0 := fetchAt_state s s.pc
    have h1 := fetchAt_state (fetchAt s s.pc).2 (s.pc + 4#32)
    have h2 := fetchAt_state (fetchAt (fetchAt s s.pc).2 (s.pc + 4#32)).2 (s.pc + 8#32)
    exact key _ ((h0.1.trans h1.1).trans h2.1) (h2.2.trans (h1.2.trans h0.2)) _

end Sys2Proof.Machine
end

