-- ==== Sys2Proof/Laws/PerInstr.lean ====
section
/-! SUPPORT. Per instruction: bits 31:28 of its word are the code of its condition (R90, R120). -/

namespace Sys2Proof.Laws.CondField

set_option Elab.async false

/-- Bits 31:28 of the word are the code of the condition. -/
def Statement (i : Instr) : Prop := field (encode i) 28 4 = i.cond.bits

theorem andImm : ∀ c sf rn rd rot imm8, Statement (.andImm c sf rn rd rot imm8) := by
  intros; simp [Statement, encode, Word.pushBit, field_push_high, field_push_low, Instr.cond]
theorem andShImm : ∀ c sf rn rd amount t rm, Statement (.andShImm c sf rn rd amount t rm) := by
  intros; simp [Statement, encode, Word.pushBit, field_push_high, field_push_low, Instr.cond]
theorem andShReg : ∀ c sf rn rd rs t rm, Statement (.andShReg c sf rn rd rs t rm) := by
  intros; simp [Statement, encode, Word.pushBit, field_push_high, field_push_low, Instr.cond]
theorem eorImm : ∀ c sf rn rd rot imm8, Statement (.eorImm c sf rn rd rot imm8) := by
  intros; simp [Statement, encode, Word.pushBit, field_push_high, field_push_low, Instr.cond]
theorem eorShImm : ∀ c sf rn rd amount t rm, Statement (.eorShImm c sf rn rd amount t rm) := by
  intros; simp [Statement, encode, Word.pushBit, field_push_high, field_push_low, Instr.cond]
theorem eorShReg : ∀ c sf rn rd rs t rm, Statement (.eorShReg c sf rn rd rs t rm) := by
  intros; simp [Statement, encode, Word.pushBit, field_push_high, field_push_low, Instr.cond]
theorem subImm : ∀ c sf rn rd rot imm8, Statement (.subImm c sf rn rd rot imm8) := by
  intros; simp [Statement, encode, Word.pushBit, field_push_high, field_push_low, Instr.cond]
theorem subShImm : ∀ c sf rn rd amount t rm, Statement (.subShImm c sf rn rd amount t rm) := by
  intros; simp [Statement, encode, Word.pushBit, field_push_high, field_push_low, Instr.cond]
theorem subShReg : ∀ c sf rn rd rs t rm, Statement (.subShReg c sf rn rd rs t rm) := by
  intros; simp [Statement, encode, Word.pushBit, field_push_high, field_push_low, Instr.cond]
theorem rsbImm : ∀ c sf rn rd rot imm8, Statement (.rsbImm c sf rn rd rot imm8) := by
  intros; simp [Statement, encode, Word.pushBit, field_push_high, field_push_low, Instr.cond]
theorem rsbShImm : ∀ c sf rn rd amount t rm, Statement (.rsbShImm c sf rn rd amount t rm) := by
  intros; simp [Statement, encode, Word.pushBit, field_push_high, field_push_low, Instr.cond]
theorem rsbShReg : ∀ c sf rn rd rs t rm, Statement (.rsbShReg c sf rn rd rs t rm) := by
  intros; simp [Statement, encode, Word.pushBit, field_push_high, field_push_low, Instr.cond]
theorem addImm : ∀ c sf rn rd rot imm8, Statement (.addImm c sf rn rd rot imm8) := by
  intros; simp [Statement, encode, Word.pushBit, field_push_high, field_push_low, Instr.cond]
theorem addShImm : ∀ c sf rn rd amount t rm, Statement (.addShImm c sf rn rd amount t rm) := by
  intros; simp [Statement, encode, Word.pushBit, field_push_high, field_push_low, Instr.cond]
theorem addShReg : ∀ c sf rn rd rs t rm, Statement (.addShReg c sf rn rd rs t rm) := by
  intros; simp [Statement, encode, Word.pushBit, field_push_high, field_push_low, Instr.cond]
theorem adcImm : ∀ c sf rn rd rot imm8, Statement (.adcImm c sf rn rd rot imm8) := by
  intros; simp [Statement, encode, Word.pushBit, field_push_high, field_push_low, Instr.cond]
theorem adcShImm : ∀ c sf rn rd amount t rm, Statement (.adcShImm c sf rn rd amount t rm) := by
  intros; simp [Statement, encode, Word.pushBit, field_push_high, field_push_low, Instr.cond]
theorem adcShReg : ∀ c sf rn rd rs t rm, Statement (.adcShReg c sf rn rd rs t rm) := by
  intros; simp [Statement, encode, Word.pushBit, field_push_high, field_push_low, Instr.cond]
theorem sbcImm : ∀ c sf rn rd rot imm8, Statement (.sbcImm c sf rn rd rot imm8) := by
  intros; simp [Statement, encode, Word.pushBit, field_push_high, field_push_low, Instr.cond]
theorem sbcShImm : ∀ c sf rn rd amount t rm, Statement (.sbcShImm c sf rn rd amount t rm) := by
  intros; simp [Statement, encode, Word.pushBit, field_push_high, field_push_low, Instr.cond]
theorem sbcShReg : ∀ c sf rn rd rs t rm, Statement (.sbcShReg c sf rn rd rs t rm) := by
  intros; simp [Statement, encode, Word.pushBit, field_push_high, field_push_low, Instr.cond]
theorem rscImm : ∀ c sf rn rd rot imm8, Statement (.rscImm c sf rn rd rot imm8) := by
  intros; simp [Statement, encode, Word.pushBit, field_push_high, field_push_low, Instr.cond]
theorem rscShImm : ∀ c sf rn rd amount t rm, Statement (.rscShImm c sf rn rd amount t rm) := by
  intros; simp [Statement, encode, Word.pushBit, field_push_high, field_push_low, Instr.cond]
theorem rscShReg : ∀ c sf rn rd rs t rm, Statement (.rscShReg c sf rn rd rs t rm) := by
  intros; simp [Statement, encode, Word.pushBit, field_push_high, field_push_low, Instr.cond]
theorem tstImm : ∀ c rn rot imm8, Statement (.tstImm c rn rot imm8) := by
  intros; simp [Statement, encode, field_push_high, field_push_low, Instr.cond]
theorem tstShImm : ∀ c rn amount t rm, Statement (.tstShImm c rn amount t rm) := by
  intros; simp [Statement, encode, field_push_high, field_push_low, Instr.cond]
theorem tstShReg : ∀ c rn rs t rm, Statement (.tstShReg c rn rs t rm) := by
  intros; simp [Statement, encode, field_push_high, field_push_low, Instr.cond]
theorem teqImm : ∀ c rn rot imm8, Statement (.teqImm c rn rot imm8) := by
  intros; simp [Statement, encode, field_push_high, field_push_low, Instr.cond]
theorem teqShImm : ∀ c rn amount t rm, Statement (.teqShImm c rn amount t rm) := by
  intros; simp [Statement, encode, field_push_high, field_push_low, Instr.cond]
theorem teqShReg : ∀ c rn rs t rm, Statement (.teqShReg c rn rs t rm) := by
  intros; simp [Statement, encode, field_push_high, field_push_low, Instr.cond]
theorem cmpImm : ∀ c rn rot imm8, Statement (.cmpImm c rn rot imm8) := by
  intros; simp [Statement, encode, field_push_high, field_push_low, Instr.cond]
theorem cmpShImm : ∀ c rn amount t rm, Statement (.cmpShImm c rn amount t rm) := by
  intros; simp [Statement, encode, field_push_high, field_push_low, Instr.cond]
theorem cmpShReg : ∀ c rn rs t rm, Statement (.cmpShReg c rn rs t rm) := by
  intros; simp [Statement, encode, field_push_high, field_push_low, Instr.cond]
theorem cmnImm : ∀ c rn rot imm8, Statement (.cmnImm c rn rot imm8) := by
  intros; simp [Statement, encode, field_push_high, field_push_low, Instr.cond]
theorem cmnShImm : ∀ c rn amount t rm, Statement (.cmnShImm c rn amount t rm) := by
  intros; simp [Statement, encode, field_push_high, field_push_low, Instr.cond]
theorem cmnShReg : ∀ c rn rs t rm, Statement (.cmnShReg c rn rs t rm) := by
  intros; simp [Statement, encode, field_push_high, field_push_low, Instr.cond]
theorem orrImm : ∀ c sf rn rd rot imm8, Statement (.orrImm c sf rn rd rot imm8) := by
  intros; simp [Statement, encode, Word.pushBit, field_push_high, field_push_low, Instr.cond]
theorem orrShImm : ∀ c sf rn rd amount t rm, Statement (.orrShImm c sf rn rd amount t rm) := by
  intros; simp [Statement, encode, Word.pushBit, field_push_high, field_push_low, Instr.cond]
theorem orrShReg : ∀ c sf rn rd rs t rm, Statement (.orrShReg c sf rn rd rs t rm) := by
  intros; simp [Statement, encode, Word.pushBit, field_push_high, field_push_low, Instr.cond]
theorem movImm : ∀ c sf rd rot imm8, Statement (.movImm c sf rd rot imm8) := by
  intros; simp [Statement, encode, Word.pushBit, field_push_high, field_push_low, Instr.cond]
theorem movShImm : ∀ c sf rd amount t rm, Statement (.movShImm c sf rd amount t rm) := by
  intros; simp [Statement, encode, Word.pushBit, field_push_high, field_push_low, Instr.cond]
theorem movShReg : ∀ c sf rd rs t rm, Statement (.movShReg c sf rd rs t rm) := by
  intros; simp [Statement, encode, Word.pushBit, field_push_high, field_push_low, Instr.cond]
theorem bicImm : ∀ c sf rn rd rot imm8, Statement (.bicImm c sf rn rd rot imm8) := by
  intros; simp [Statement, encode, Word.pushBit, field_push_high, field_push_low, Instr.cond]
theorem bicShImm : ∀ c sf rn rd amount t rm, Statement (.bicShImm c sf rn rd amount t rm) := by
  intros; simp [Statement, encode, Word.pushBit, field_push_high, field_push_low, Instr.cond]
theorem bicShReg : ∀ c sf rn rd rs t rm, Statement (.bicShReg c sf rn rd rs t rm) := by
  intros; simp [Statement, encode, Word.pushBit, field_push_high, field_push_low, Instr.cond]
theorem mvnImm : ∀ c sf rd rot imm8, Statement (.mvnImm c sf rd rot imm8) := by
  intros; simp [Statement, encode, Word.pushBit, field_push_high, field_push_low, Instr.cond]
theorem mvnShImm : ∀ c sf rd amount t rm, Statement (.mvnShImm c sf rd amount t rm) := by
  intros; simp [Statement, encode, Word.pushBit, field_push_high, field_push_low, Instr.cond]
theorem mvnShReg : ∀ c sf rd rs t rm, Statement (.mvnShReg c sf rd rs t rm) := by
  intros; simp [Statement, encode, Word.pushBit, field_push_high, field_push_low, Instr.cond]
theorem mul : ∀ c sf rd rs rm, Statement (.mul c sf rd rs rm) := by
  intros; simp [Statement, encode, Word.pushBit, field_push_high, field_push_low, Instr.cond]
theorem mla : ∀ c sf rd rn rs rm, Statement (.mla c sf rd rn rs rm) := by
  intros; simp [Statement, encode, Word.pushBit, field_push_high, field_push_low, Instr.cond]
theorem umull : ∀ c sf rdHi rdLo rs rm, Statement (.umull c sf rdHi rdLo rs rm) := by
  intros; simp [Statement, encode, Word.pushBit, field_push_high, field_push_low, Instr.cond]
theorem umlal : ∀ c sf rdHi rdLo rs rm, Statement (.umlal c sf rdHi rdLo rs rm) := by
  intros; simp [Statement, encode, Word.pushBit, field_push_high, field_push_low, Instr.cond]
theorem smull : ∀ c sf rdHi rdLo rs rm, Statement (.smull c sf rdHi rdLo rs rm) := by
  intros; simp [Statement, encode, Word.pushBit, field_push_high, field_push_low, Instr.cond]
theorem smlal : ∀ c sf rdHi rdLo rs rm, Statement (.smlal c sf rdHi rdLo rs rm) := by
  intros; simp [Statement, encode, Word.pushBit, field_push_high, field_push_low, Instr.cond]
theorem swp : ∀ c rn rd rm, Statement (.swp c rn rd rm) := by
  intros; simp [Statement, encode, field_push_high, field_push_low, Instr.cond]
theorem swpb : ∀ c rn rd rm, Statement (.swpb c rn rd rm) := by
  intros; simp [Statement, encode, field_push_high, field_push_low, Instr.cond]
theorem bx : ∀ c rm, Statement (.bx c rm) := by
  intros; simp [Statement, encode, field_push_high, field_push_low, Instr.cond]
theorem mrs : ∀ c spsr rd, Statement (.mrs c spsr rd) := by
  intros; simp [Statement, encode, Word.pushBit, field_push_high, field_push_low, Instr.cond]
theorem msrReg : ∀ c spsr mask rm, Statement (.msrReg c spsr mask rm) := by
  intros; simp [Statement, encode, Word.pushBit, field_push_high, field_push_low, Instr.cond]
theorem msrImm : ∀ c spsr mask rot imm8, Statement (.msrImm c spsr mask rot imm8) := by
  intros; simp [Statement, encode, Word.pushBit, field_push_high, field_push_low, Instr.cond]
theorem ldrImm : ∀ c u w rn rd imm12, Statement (.ldrImm c u w rn rd imm12) := by
  intros; simp [Statement, encode, Word.pushBit, field_push_high, field_push_low, Instr.cond]
theorem ldrImmPost : ∀ c u rn rd imm12, Statement (.ldrImmPost c u rn rd imm12) := by
  intros; simp [Statement, encode, Word.pushBit, field_push_high, field_push_low, Instr.cond]
theorem ldrReg : ∀ c u w rn rd amount t rm, Statement (.ldrReg c u w rn rd amount t rm) := by
  intros; simp [Statement, encode, Word.pushBit, field_push_high, field_push_low, Instr.cond]
theorem ldrRegPost : ∀ c u rn rd amount t rm, Statement (.ldrRegPost c u rn rd amount t rm) := by
  intros; simp [Statement, encode, Word.pushBit, field_push_high, field_push_low, Instr.cond]
theorem strImm : ∀ c u w rn rd imm12, Statement (.strImm c u w rn rd imm12) := by
  intros; simp [Statement, encode, Word.pushBit, field_push_high, field_push_low, Instr.cond]
theorem strImmPost : ∀ c u rn rd imm12, Statement (.strImmPost c u rn rd imm12) := by
  intros; simp [Statement, encode, Word.pushBit, field_push_high, field_push_low, Instr.cond]
theorem strReg : ∀ c u w rn rd amount t rm, Statement (.strReg c u w rn rd amount t rm) := by
  intros; simp [Statement, encode, Word.pushBit, field_push_high, field_push_low, Instr.cond]
theorem strRegPost : ∀ c u rn rd amount t rm, Statement (.strRegPost c u rn rd amount t rm) := by
  intros; simp [Statement, encode, Word.pushBit, field_push_high, field_push_low, Instr.cond]
theorem ldrbImm : ∀ c u w rn rd imm12, Statement (.ldrbImm c u w rn rd imm12) := by
  intros; simp [Statement, encode, Word.pushBit, field_push_high, field_push_low, Instr.cond]
theorem ldrbImmPost : ∀ c u rn rd imm12, Statement (.ldrbImmPost c u rn rd imm12) := by
  intros; simp [Statement, encode, Word.pushBit, field_push_high, field_push_low, Instr.cond]
theorem ldrbReg : ∀ c u w rn rd amount t rm, Statement (.ldrbReg c u w rn rd amount t rm) := by
  intros; simp [Statement, encode, Word.pushBit, field_push_high, field_push_low, Instr.cond]
theorem ldrbRegPost : ∀ c u rn rd amount t rm, Statement (.ldrbRegPost c u rn rd amount t rm) := by
  intros; simp [Statement, encode, Word.pushBit, field_push_high, field_push_low, Instr.cond]
theorem strbImm : ∀ c u w rn rd imm12, Statement (.strbImm c u w rn rd imm12) := by
  intros; simp [Statement, encode, Word.pushBit, field_push_high, field_push_low, Instr.cond]
theorem strbImmPost : ∀ c u rn rd imm12, Statement (.strbImmPost c u rn rd imm12) := by
  intros; simp [Statement, encode, Word.pushBit, field_push_high, field_push_low, Instr.cond]
theorem strbReg : ∀ c u w rn rd amount t rm, Statement (.strbReg c u w rn rd amount t rm) := by
  intros; simp [Statement, encode, Word.pushBit, field_push_high, field_push_low, Instr.cond]
theorem strbRegPost : ∀ c u rn rd amount t rm, Statement (.strbRegPost c u rn rd amount t rm) := by
  intros; simp [Statement, encode, Word.pushBit, field_push_high, field_push_low, Instr.cond]
theorem ldrtImm : ∀ c u rn rd imm12, Statement (.ldrtImm c u rn rd imm12) := by
  intros; simp [Statement, encode, Word.pushBit, field_push_high, field_push_low, Instr.cond]
theorem ldrtReg : ∀ c u rn rd amount t rm, Statement (.ldrtReg c u rn rd amount t rm) := by
  intros; simp [Statement, encode, Word.pushBit, field_push_high, field_push_low, Instr.cond]
theorem strtImm : ∀ c u rn rd imm12, Statement (.strtImm c u rn rd imm12) := by
  intros; simp [Statement, encode, Word.pushBit, field_push_high, field_push_low, Instr.cond]
theorem strtReg : ∀ c u rn rd amount t rm, Statement (.strtReg c u rn rd amount t rm) := by
  intros; simp [Statement, encode, Word.pushBit, field_push_high, field_push_low, Instr.cond]
theorem ldrbtImm : ∀ c u rn rd imm12, Statement (.ldrbtImm c u rn rd imm12) := by
  intros; simp [Statement, encode, Word.pushBit, field_push_high, field_push_low, Instr.cond]
theorem ldrbtReg : ∀ c u rn rd amount t rm, Statement (.ldrbtReg c u rn rd amount t rm) := by
  intros; simp [Statement, encode, Word.pushBit, field_push_high, field_push_low, Instr.cond]
theorem strbtImm : ∀ c u rn rd imm12, Statement (.strbtImm c u rn rd imm12) := by
  intros; simp [Statement, encode, Word.pushBit, field_push_high, field_push_low, Instr.cond]
theorem strbtReg : ∀ c u rn rd amount t rm, Statement (.strbtReg c u rn rd amount t rm) := by
  intros; simp [Statement, encode, Word.pushBit, field_push_high, field_push_low, Instr.cond]
theorem ldrhImm : ∀ c ix u rn rd immH immL, Statement (.ldrhImm c ix u rn rd immH immL) := by
  intros; simp [Statement, encode, Word.pushBit, field_push_high, field_push_low, Instr.cond]
theorem ldrhReg : ∀ c ix u rn rd rm, Statement (.ldrhReg c ix u rn rd rm) := by
  intros; simp [Statement, encode, Word.pushBit, field_push_high, field_push_low, Instr.cond]
theorem strhImm : ∀ c ix u rn rd immH immL, Statement (.strhImm c ix u rn rd immH immL) := by
  intros; simp [Statement, encode, Word.pushBit, field_push_high, field_push_low, Instr.cond]
theorem strhReg : ∀ c ix u rn rd rm, Statement (.strhReg c ix u rn rd rm) := by
  intros; simp [Statement, encode, Word.pushBit, field_push_high, field_push_low, Instr.cond]
theorem ldrsbImm : ∀ c ix u rn rd immH immL, Statement (.ldrsbImm c ix u rn rd immH immL) := by
  intros; simp [Statement, encode, Word.pushBit, field_push_high, field_push_low, Instr.cond]
theorem ldrsbReg : ∀ c ix u rn rd rm, Statement (.ldrsbReg c ix u rn rd rm) := by
  intros; simp [Statement, encode, Word.pushBit, field_push_high, field_push_low, Instr.cond]
theorem ldrshImm : ∀ c ix u rn rd immH immL, Statement (.ldrshImm c ix u rn rd immH immL) := by
  intros; simp [Statement, encode, Word.pushBit, field_push_high, field_push_low, Instr.cond]
theorem ldrshReg : ∀ c ix u rn rd rm, Statement (.ldrshReg c ix u rn rd rm) := by
  intros; simp [Statement, encode, Word.pushBit, field_push_high, field_push_low, Instr.cond]
theorem ldm : ∀ c p u sf w rn list, Statement (.ldm c p u sf w rn list) := by
  intros; simp [Statement, encode, Word.pushBit, field_push_high, field_push_low, Instr.cond]
theorem stm : ∀ c p u sf w rn list, Statement (.stm c p u sf w rn list) := by
  intros; simp [Statement, encode, Word.pushBit, field_push_high, field_push_low, Instr.cond]
theorem b : ∀ c imm24, Statement (.b c imm24) := by
  intros; simp [Statement, encode, field_push_high, field_push_low, Instr.cond]
theorem bl : ∀ c imm24, Statement (.bl c imm24) := by
  intros; simp [Statement, encode, field_push_high, field_push_low, Instr.cond]
theorem swi : ∀ c imm24, Statement (.swi c imm24) := by
  intros; simp [Statement, encode, field_push_high, field_push_low, Instr.cond]
theorem undefined : ∀ c hi lo, Statement (.undefined c hi lo) := by
  intros; simp [Statement, encode, field_push_high, field_push_low, Instr.cond]
theorem ldc : ∀ c p u n w rn crd cp off8, Statement (.ldc c p u n w rn crd cp off8) := by
  intros; simp [Statement, encode, Word.pushBit, field_push_high, field_push_low, Instr.cond]
theorem stc : ∀ c p u n w rn crd cp off8, Statement (.stc c p u n w rn crd cp off8) := by
  intros; simp [Statement, encode, Word.pushBit, field_push_high, field_push_low, Instr.cond]
theorem cdp : ∀ c op1 crn crd cp op2 crm, Statement (.cdp c op1 crn crd cp op2 crm) := by
  intros; simp [Statement, encode, field_push_high, field_push_low, Instr.cond]
theorem mcr : ∀ c op1 crn rd cp op2 crm, Statement (.mcr c op1 crn rd cp op2 crm) := by
  intros; simp [Statement, encode, field_push_high, field_push_low, Instr.cond]
theorem mrc : ∀ c op1 crn rd cp op2 crm, Statement (.mrc c op1 crn rd cp op2 crm) := by
  intros; simp [Statement, encode, field_push_high, field_push_low, Instr.cond]

end Sys2Proof.Laws.CondField
end

