-- ==== Sys2Proof/Tests/Slice0.lean ====
section
/-! SUPPORT. The model's own tests: decoding of words written out from the spec's encodings, the refusal of ill-formed operands, one
step of every instruction, and a witness for the hypotheses of every obligation. Expected results are the vectors V1 to V65 of the
spec's test-vector file where they cover a form, and hand calculation from the rule otherwise. -/

set_option Elab.async false

namespace Sys2Proof

/-! Decoding: for every row of the table one word, bit by bit from its encoding string. -/

/-- `cccc 001 0000 S nnnn dddd rrrr iiiiiiii`; `cccc 000 0000 S nnnn dddd aaaaa tt 0 mmmm`; `cccc 000 0000 S nnnn dddd ssss 0 tt 1 mmmm`. -/
theorem test_decode_and :
    decodeWord 0b00000010000000010101001110100110#32 = .ok (.andImm .eq false 1#4 5#4 3#4 0xa6#8) ∧
    decodeWord 0b00010000000100100110010100101011#32 = .ok (.andShImm .ne true 2#4 6#4 0xa#5 .lsr 11#4) ∧
    decodeWord 0b00100000000000110111100101011100#32 = .ok (.andShReg .cs false 3#4 7#4 9#4 .asr 12#4) := by
  refine ⟨?_, ?_, ?_⟩ <;> decide

/-- `cccc 001 0001 S nnnn dddd rrrr iiiiiiii`; `cccc 000 0001 S nnnn dddd aaaaa tt 0 mmmm`; `cccc 000 0001 S nnnn dddd ssss 0 tt 1 mmmm`. -/
theorem test_decode_eor :
    decodeWord 0b00110010001100011000001010100110#32 = .ok (.eorImm .cc true 1#4 8#4 2#4 0xa6#8) ∧
    decodeWord 0b01000000001000100101111110001100#32 = .ok (.eorShImm .mi false 2#4 5#4 0x1f#5 .lsl 12#4) ∧
    decodeWord 0b01010000001100110110101000111011#32 = .ok (.eorShReg .pl true 3#4 6#4 10#4 .lsr 11#4) := by
  refine ⟨?_, ?_, ?_⟩ <;> decide

/-- `cccc 001 0010 S nnnn dddd rrrr iiiiiiii`; `cccc 000 0010 S nnnn dddd aaaaa tt 0 mmmm`; `cccc 000 0010 S nnnn dddd ssss 0 tt 1 mmmm`. -/
theorem test_decode_sub :
    decodeWord 0b01100010010000010111000110100110#32 = .ok (.subImm .vs false 1#4 7#4 1#4 0xa6#8) ∧
    decodeWord 0b01110000010100101000101001101011#32 = .ok (.subShImm .vc true 2#4 8#4 0x14#5 .ror 11#4) ∧
    decodeWord 0b10000000010000110101100100011100#32 = .ok (.subShReg .hi false 3#4 5#4 9#4 .lsl 12#4) := by
  refine ⟨?_, ?_, ?_⟩ <;> decide

/-- `cccc 001 0011 S nnnn dddd rrrr iiiiiiii`; `cccc 000 0011 S nnnn dddd aaaaa tt 0 mmmm`; `cccc 000 0011 S nnnn dddd ssss 0 tt 1 mmmm`. -/
theorem test_decode_rsb :
    decodeWord 0b10010010011100010110000010100110#32 = .ok (.rsbImm .ls true 1#4 6#4 0#4 0xa6#8) ∧
    decodeWord 0b10100000011000100111010011001100#32 = .ok (.rsbShImm .ge false 2#4 7#4 0x9#5 .asr 12#4) ∧
    decodeWord 0b10110000011100111000101001111011#32 = .ok (.rsbShReg .lt true 3#4 8#4 10#4 .ror 11#4) := by
  refine ⟨?_, ?_, ?_⟩ <;> decide

/-- `cccc 001 0100 S nnnn dddd rrrr iiiiiiii`; `cccc 000 0100 S nnnn dddd aaaaa tt 0 mmmm`; `cccc 000 0100 S nnnn dddd ssss 0 tt 1 mmmm`. -/
theorem test_decode_add :
    decodeWord 0b11000010100000010101111110100110#32 = .ok (.addImm .gt false 1#4 5#4 15#4 0xa6#8) ∧
    decodeWord 0b11010000100100100110111100101011#32 = .ok (.addShImm .le true 2#4 6#4 0x1e#5 .lsr 11#4) ∧
    decodeWord 0b11100000100000110111100101011100#32 = .ok (.addShReg .al false 3#4 7#4 9#4 .asr 12#4) := by
  refine ⟨?_, ?_, ?_⟩ <;> decide

/-- `cccc 001 0101 S nnnn dddd rrrr iiiiiiii`; `cccc 000 0101 S nnnn dddd aaaaa tt 0 mmmm`; `cccc 000 0101 S nnnn dddd ssss 0 tt 1 mmmm`. -/
theorem test_decode_adc :
    decodeWord 0b00000010101100011000111010100110#32 = .ok (.adcImm .eq true 1#4 8#4 14#4 0xa6#8) ∧
    decodeWord 0b00010000101000100101100110001100#32 = .ok (.adcShImm .ne false 2#4 5#4 0x13#5 .lsl 12#4) ∧
    decodeWord 0b00100000101100110110101000111011#32 = .ok (.adcShReg .cs true 3#4 6#4 10#4 .lsr 11#4) := by
  refine ⟨?_, ?_, ?_⟩ <;> decide

/-- `cccc 001 0110 S nnnn dddd rrrr iiiiiiii`; `cccc 000 0110 S nnnn dddd aaaaa tt 0 mmmm`; `cccc 000 0110 S nnnn dddd ssss 0 tt 1 mmmm`. -/
theorem test_decode_sbc :
    decodeWord 0b00110010110000010111110110100110#32 = .ok (.sbcImm .cc false 1#4 7#4 13#4 0xa6#8) ∧
    decodeWord 0b01000000110100101000010001101011#32 = .ok (.sbcShImm .mi true 2#4 8#4 0x8#5 .ror 11#4) ∧
    decodeWord 0b01010000110000110101100100011100#32 = .ok (.sbcShReg .pl false 3#4 5#4 9#4 .lsl 12#4) := by
  refine ⟨?_, ?_, ?_⟩ <;> decide

/-- `cccc 001 0111 S nnnn dddd rrrr iiiiiiii`; `cccc 000 0111 S nnnn dddd aaaaa tt 0 mmmm`; `cccc 000 0111 S nnnn dddd ssss 0 tt 1 mmmm`. -/
theorem test_decode_rsc :
    decodeWord 0b01100010111100010110110010100110#32 = .ok (.rscImm .vs true 1#4 6#4 12#4 0xa6#8) ∧
    decodeWord 0b01110000111000100111111011001100#32 = .ok (.rscShImm .vc false 2#4 7#4 0x1d#5 .asr 12#4) ∧
    decodeWord 0b10000000111100111000101001111011#32 = .ok (.rscShReg .hi true 3#4 8#4 10#4 .ror 11#4) := by
  refine ⟨?_, ?_, ?_⟩ <;> decide

/-- `cccc 001 1000 1 nnnn dddd rrrr iiiiiiii`; `cccc 000 1000 1 nnnn dddd aaaaa tt 0 mmmm`; `cccc 000 1000 1 nnnn dddd ssss 0 tt 1 mmmm`. -/
theorem test_decode_tst :
    decodeWord 0b10010011000100010000101110100110#32 = .ok (.tstImm .ls 1#4 11#4 0xa6#8) ∧
    decodeWord 0b10100001000100100000100100101011#32 = .ok (.tstShImm .ge 2#4 0x12#5 .lsr 11#4) ∧
    decodeWord 0b10110001000100110000100101011100#32 = .ok (.tstShReg .lt 3#4 9#4 .asr 12#4) := by
  refine ⟨?_, ?_, ?_⟩ <;> decide

/-- `cccc 001 1001 1 nnnn dddd rrrr iiiiiiii`; `cccc 000 1001 1 nnnn dddd aaaaa tt 0 mmmm`; `cccc 000 1001 1 nnnn dddd ssss 0 tt 1 mmmm`. -/
theorem test_decode_teq :
    decodeWord 0b11000011001100010000101010100110#32 = .ok (.teqImm .gt 1#4 10#4 0xa6#8) ∧
    decodeWord 0b11010001001100100000001110001100#32 = .ok (.teqShImm .le 2#4 0x7#5 .lsl 12#4) ∧
    decodeWord 0b11100001001100110000101000111011#32 = .ok (.teqShReg .al 3#4 10#4 .lsr 11#4) := by
  refine ⟨?_, ?_, ?_⟩ <;> decide

/-- `cccc 001 1010 1 nnnn dddd rrrr iiiiiiii`; `cccc 000 1010 1 nnnn dddd aaaaa tt 0 mmmm`; `cccc 000 1010 1 nnnn dddd ssss 0 tt 1 mmmm`. -/
theorem test_decode_cmp :
    decodeWord 0b00000011010100010000100110100110#32 = .ok (.cmpImm .eq 1#4 9#4 0xa6#8) ∧
    decodeWord 0b00010001010100100000111001101011#32 = .ok (.cmpShImm .ne 2#4 0x1c#5 .ror 11#4) ∧
    decodeWord 0b00100001010100110000100100011100#32 = .ok (.cmpShReg .cs 3#4 9#4 .lsl 12#4) := by
  refine ⟨?_, ?_, ?_⟩ <;> decide

/-- `cccc 001 1011 1 nnnn dddd rrrr iiiiiiii`; `cccc 000 1011 1 nnnn dddd aaaaa tt 0 mmmm`; `cccc 000 1011 1 nnnn dddd ssss 0 tt 1 mmmm`. -/
theorem test_decode_cmn :
    decodeWord 0b00110011011100010000100010100110#32 = .ok (.cmnImm .cc 1#4 8#4 0xa6#8) ∧
    decodeWord 0b01000001011100100000100011001100#32 = .ok (.cmnShImm .mi 2#4 0x11#5 .asr 12#4) ∧
    decodeWord 0b01010001011100110000101001111011#32 = .ok (.cmnShReg .pl 3#4 10#4 .ror 11#4) := by
  refine ⟨?_, ?_, ?_⟩ <;> decide

/-- `cccc 001 1100 S nnnn dddd rrrr iiiiiiii`; `cccc 000 1100 S nnnn dddd aaaaa tt 0 mmmm`; `cccc 000 1100 S nnnn dddd ssss 0 tt 1 mmmm`. -/
theorem test_decode_orr :
    decodeWord 0b01100011100000010101011110100110#32 = .ok (.orrImm .vs false 1#4 5#4 7#4 0xa6#8) ∧
    decodeWord 0b01110001100100100110001100101011#32 = .ok (.orrShImm .vc true 2#4 6#4 0x6#5 .lsr 11#4) ∧
    decodeWord 0b10000001100000110111100101011100#32 = .ok (.orrShReg .hi false 3#4 7#4 9#4 .asr 12#4) := by
  refine ⟨?_, ?_, ?_⟩ <;> decide

/-- `cccc 001 1101 S nnnn dddd rrrr iiiiiiii`; `cccc 000 1101 S nnnn dddd aaaaa tt 0 mmmm`; `cccc 000 1101 S nnnn dddd ssss 0 tt 1 mmmm`. -/
theorem test_decode_mov :
    decodeWord 0b10010011101100001000011010100110#32 = .ok (.movImm .ls true 8#4 6#4 0xa6#8) ∧
    decodeWord 0b10100001101000000101110110001100#32 = .ok (.movShImm .ge false 5#4 0x1b#5 .lsl 12#4) ∧
    decodeWord 0b10110001101100000110101000111011#32 = .ok (.movShReg .lt true 6#4 10#4 .lsr 11#4) := by
  refine ⟨?_, ?_, ?_⟩ <;> decide

/-- `cccc 001 1110 S nnnn dddd rrrr iiiiiiii`; `cccc 000 1110 S nnnn dddd aaaaa tt 0 mmmm`; `cccc 000 1110 S nnnn dddd ssss 0 tt 1 mmmm`. -/
theorem test_decode_bic :
    decodeWord 0b11000011110000010111010110100110#32 = .ok (.bicImm .gt false 1#4 7#4 5#4 0xa6#8) ∧
    decodeWord 0b11010001110100101000100001101011#32 = .ok (.bicShImm .le true 2#4 8#4 0x10#5 .ror 11#4) ∧
    decodeWord 0b11100001110000110101100100011100#32 = .ok (.bicShReg .al false 3#4 5#4 9#4 .lsl 12#4) := by
  refine ⟨?_, ?_, ?_⟩ <;> decide

/-- `cccc 001 1111 S nnnn dddd rrrr iiiiiiii`; `cccc 000 1111 S nnnn dddd aaaaa tt 0 mmmm`; `cccc 000 1111 S nnnn dddd ssss 0 tt 1 mmmm`. -/
theorem test_decode_mvn :
    decodeWord 0b00000011111100000110010010100110#32 = .ok (.mvnImm .eq true 6#4 4#4 0xa6#8) ∧
    decodeWord 0b00010001111000000111001011001100#32 = .ok (.mvnShImm .ne false 7#4 0x5#5 .asr 12#4) ∧
    decodeWord 0b00100001111100001000101001111011#32 = .ok (.mvnShReg .cs true 8#4 10#4 .ror 11#4) := by
  refine ⟨?_, ?_, ?_⟩ <;> decide

/-- `cccc 0000 000 S dddd zzzz ssss 1001 mmmm`. -/
theorem test_decode_mul :
    decodeWord 0b00110000000001010000100110011100#32 = .ok (.mul .cc false 5#4 9#4 12#4) := by
  decide

/-- `cccc 0000 001 S dddd nnnn ssss 1001 mmmm`. -/
theorem test_decode_mla :
    decodeWord 0b01000000001101100010101010011011#32 = .ok (.mla .mi true 6#4 2#4 10#4 11#4) := by
  decide

/-- `cccc 0000 100 S hhhh llll ssss 1001 mmmm`. -/
theorem test_decode_umull :
    decodeWord 0b01010000100001111000100110011100#32 = .ok (.umull .pl false 7#4 8#4 9#4 12#4) := by
  decide

/-- `cccc 0000 101 S hhhh llll ssss 1001 mmmm`. -/
theorem test_decode_umlal :
    decodeWord 0b01100000101101111000101010011011#32 = .ok (.umlal .vs true 7#4 8#4 10#4 11#4) := by
  decide

/-- `cccc 0000 110 S hhhh llll ssss 1001 mmmm`. -/
theorem test_decode_smull :
    decodeWord 0b01110000110001111000100110011100#32 = .ok (.smull .vc false 7#4 8#4 9#4 12#4) := by
  decide

/-- `cccc 0000 111 S hhhh llll ssss 1001 mmmm`. -/
theorem test_decode_smlal :
    decodeWord 0b10000000111101111000101010011011#32 = .ok (.smlal .hi true 7#4 8#4 10#4 11#4) := by
  decide

/-- `cccc 0001 0000 nnnn dddd 0000 1001 mmmm`. -/
theorem test_decode_swp :
    decodeWord 0b10010001000000010111000010011100#32 = .ok (.swp .ls 1#4 7#4 12#4) := by
  decide

/-- `cccc 0001 0100 nnnn dddd 0000 1001 mmmm`. -/
theorem test_decode_swpb :
    decodeWord 0b10100001010000101000000010011011#32 = .ok (.swpb .ge 2#4 8#4 11#4) := by
  decide

/-- `cccc 0001 0010 1111 1111 1111 0001 mmmm`. -/
theorem test_decode_bx :
    decodeWord 0b10110001001011111111111100011100#32 = .ok (.bx .lt 12#4) := by
  decide

/-- `cccc 0001 0 R 00 1111 dddd 0000 0000 0000`. -/
theorem test_decode_mrs :
    decodeWord 0b11000001000011110110000000000000#32 = .ok (.mrs .gt false 6#4) := by
  decide

/-- `cccc 0001 0 R 10 ffff 1111 0000 0000 mmmm`; `cccc 0011 0 R 10 ffff 1111 rrrr iiiiiiii`. -/
theorem test_decode_msr :
    decodeWord 0b11010001011010011111000000001100#32 = .ok (.msrReg .le true 9#4 12#4) ∧
    decodeWord 0b11100011001010011111101010100110#32 = .ok (.msrImm .al false 9#4 10#4 0xa6#8) := by
  refine ⟨?_, ?_⟩ <;> decide

/-- `cccc 010 1 U 0 W 1 nnnn dddd iiiiiiiiiiii`; `cccc 010 0 U 0 0 1 nnnn dddd iiiiiiiiiiii`; `cccc 011 1 U 0 W 1 nnnn dddd aaaaa tt 0 mmmm`; `cccc 011 0 U 0 0 1 nnnn dddd aaaaa tt 0 mmmm`. -/
theorem test_decode_ldr :
    decodeWord 0b00000101000100010101100011000101#32 = .ok (.ldrImm .eq false false 1#4 5#4 0x8c5#12) ∧
    decodeWord 0b00010100000100100110100011000101#32 = .ok (.ldrImmPost .ne false 2#4 6#4 0x8c5#12) ∧
    decodeWord 0b00100111100100110111101011001100#32 = .ok (.ldrReg .cs true false 3#4 7#4 0x15#5 .asr 12#4) ∧
    decodeWord 0b00110110100100011000111001101011#32 = .ok (.ldrRegPost .cc true 1#4 8#4 0x1c#5 .ror 11#4) := by
  refine ⟨?_, ?_, ?_, ?_⟩ <;> decide

/-- `cccc 010 1 U 0 W 0 nnnn dddd iiiiiiiiiiii`; `cccc 010 0 U 0 0 0 nnnn dddd iiiiiiiiiiii`; `cccc 011 1 U 0 W 0 nnnn dddd aaaaa tt 0 mmmm`; `cccc 011 0 U 0 0 0 nnnn dddd aaaaa tt 0 mmmm`. -/
theorem test_decode_str :
    decodeWord 0b01000101000000100101100011000101#32 = .ok (.strImm .mi false false 2#4 5#4 0x8c5#12) ∧
    decodeWord 0b01010100000000110110100011000101#32 = .ok (.strImmPost .pl false 3#4 6#4 0x8c5#12) ∧
    decodeWord 0b01100111100000010111100011001100#32 = .ok (.strReg .vs true false 1#4 7#4 0x11#5 .asr 12#4) ∧
    decodeWord 0b01110110100000101000110001101011#32 = .ok (.strRegPost .vc true 2#4 8#4 0x18#5 .ror 11#4) := by
  refine ⟨?_, ?_, ?_, ?_⟩ <;> decide

/-- `cccc 010 1 U 1 W 1 nnnn dddd iiiiiiiiiiii`; `cccc 010 0 U 1 0 1 nnnn dddd iiiiiiiiiiii`; `cccc 011 1 U 1 W 1 nnnn dddd aaaaa tt 0 mmmm`; `cccc 011 0 U 1 0 1 nnnn dddd aaaaa tt 0 mmmm`. -/
theorem test_decode_ldrb :
    decodeWord 0b10000101010100110101100011000101#32 = .ok (.ldrbImm .hi false false 3#4 5#4 0x8c5#12) ∧
    decodeWord 0b10010100010100010110100011000101#32 = .ok (.ldrbImmPost .ls false 1#4 6#4 0x8c5#12) ∧
    decodeWord 0b10100111110100100111011011001100#32 = .ok (.ldrbReg .ge true false 2#4 7#4 0xd#5 .asr 12#4) ∧
    decodeWord 0b10110110110100111000101001101011#32 = .ok (.ldrbRegPost .lt true 3#4 8#4 0x14#5 .ror 11#4) := by
  refine ⟨?_, ?_, ?_, ?_⟩ <;> decide

/-- `cccc 010 1 U 1 W 0 nnnn dddd iiiiiiiiiiii`; `cccc 010 0 U 1 0 0 nnnn dddd iiiiiiiiiiii`; `cccc 011 1 U 1 W 0 nnnn dddd aaaaa tt 0 mmmm`; `cccc 011 0 U 1 0 0 nnnn dddd aaaaa tt 0 mmmm`. -/
theorem test_decode_strb :
    decodeWord 0b11000101010000010101100011000101#32 = .ok (.strbImm .gt false false 1#4 5#4 0x8c5#12) ∧
    decodeWord 0b11010100010000100110100011000101#32 = .ok (.strbImmPost .le false 2#4 6#4 0x8c5#12) ∧
    decodeWord 0b11100111110000110111010011001100#32 = .ok (.strbReg .al true false 3#4 7#4 0x9#5 .asr 12#4) ∧
    decodeWord 0b00000110110000011000100001101011#32 = .ok (.strbRegPost .eq true 1#4 8#4 0x10#5 .ror 11#4) := by
  refine ⟨?_, ?_, ?_, ?_⟩ <;> decide

/-- `cccc 010 0 U 0 1 1 nnnn dddd iiiiiiiiiiii`; `cccc 011 0 U 0 1 1 nnnn dddd aaaaa tt 0 mmmm`. -/
theorem test_decode_ldrt :
    decodeWord 0b00010100001100100101100011000101#32 = .ok (.ldrtImm .ne false 2#4 5#4 0x8c5#12) ∧
    decodeWord 0b00100110001100110110111100101011#32 = .ok (.ldrtReg .cs false 3#4 6#4 0x1e#5 .lsr 11#4) := by
  refine ⟨?_, ?_⟩ <;> decide

/-- `cccc 010 0 U 0 1 0 nnnn dddd iiiiiiiiiiii`; `cccc 011 0 U 0 1 0 nnnn dddd aaaaa tt 0 mmmm`. -/
theorem test_decode_strt :
    decodeWord 0b00110100101000010111100011000101#32 = .ok (.strtImm .cc true 1#4 7#4 0x8c5#12) ∧
    decodeWord 0b01000110101000101000011001101011#32 = .ok (.strtReg .mi true 2#4 8#4 0xc#5 .ror 11#4) := by
  refine ⟨?_, ?_⟩ <;> decide

/-- `cccc 010 0 U 1 1 1 nnnn dddd iiiiiiiiiiii`; `cccc 011 0 U 1 1 1 nnnn dddd aaaaa tt 0 mmmm`. -/
theorem test_decode_ldrbt :
    decodeWord 0b01010100011100110101100011000101#32 = .ok (.ldrbtImm .pl false 3#4 5#4 0x8c5#12) ∧
    decodeWord 0b01100110011100010110110100101011#32 = .ok (.ldrbtReg .vs false 1#4 6#4 0x1a#5 .lsr 11#4) := by
  refine ⟨?_, ?_⟩ <;> decide

/-- `cccc 010 0 U 1 1 0 nnnn dddd iiiiiiiiiiii`; `cccc 011 0 U 1 1 0 nnnn dddd aaaaa tt 0 mmmm`. -/
theorem test_decode_strbt :
    decodeWord 0b01110100111000100111100011000101#32 = .ok (.strbtImm .vc true 2#4 7#4 0x8c5#12) ∧
    decodeWord 0b10000110111000111000010001101011#32 = .ok (.strbtReg .hi true 3#4 8#4 0x8#5 .ror 11#4) := by
  refine ⟨?_, ?_⟩ <;> decide

/-- `cccc 000 P U 1 W 1 nnnn dddd hhhh 1 01 1 llll`; `cccc 000 P U 0 W 1 nnnn dddd zzzz 1 01 1 mmmm`. -/
theorem test_decode_ldrh :
    decodeWord 0b10010001010100010101101110110110#32 = .ok (.ldrhImm .ls .offset false 1#4 5#4 11#4 6#4) ∧
    decodeWord 0b10100001001100100110000010111011#32 = .ok (.ldrhReg .ge .preIndexed false 2#4 6#4 11#4) := by
  refine ⟨?_, ?_⟩ <;> decide

/-- `cccc 000 P U 1 W 0 nnnn dddd hhhh 1 01 1 llll`; `cccc 000 P U 0 W 0 nnnn dddd zzzz 1 01 1 mmmm`. -/
theorem test_decode_strh :
    decodeWord 0b10110000110000110111101110110110#32 = .ok (.strhImm .lt .postIndexed true 3#4 7#4 11#4 6#4) ∧
    decodeWord 0b11000001100000011000000010111011#32 = .ok (.strhReg .gt .offset true 1#4 8#4 11#4) := by
  refine ⟨?_, ?_⟩ <;> decide

/-- `cccc 000 P U 1 W 1 nnnn dddd hhhh 1 10 1 llll`; `cccc 000 P U 0 W 1 nnnn dddd zzzz 1 10 1 mmmm`. -/
theorem test_decode_ldrsb :
    decodeWord 0b11010001011100100101101111010110#32 = .ok (.ldrsbImm .le .preIndexed false 2#4 5#4 11#4 6#4) ∧
    decodeWord 0b11100000000100110110000011011011#32 = .ok (.ldrsbReg .al .postIndexed false 3#4 6#4 11#4) := by
  refine ⟨?_, ?_⟩ <;> decide

/-- `cccc 000 P U 1 W 1 nnnn dddd hhhh 1 11 1 llll`; `cccc 000 P U 0 W 1 nnnn dddd zzzz 1 11 1 mmmm`. -/
theorem test_decode_ldrsh :
    decodeWord 0b00000001110100010111101111110110#32 = .ok (.ldrshImm .eq .offset true 1#4 7#4 11#4 6#4) ∧
    decodeWord 0b00010001101100101000000011111011#32 = .ok (.ldrshReg .ne .preIndexed true 2#4 8#4 11#4) := by
  refine ⟨?_, ?_⟩ <;> decide

/-- `cccc 100 P U S W 1 nnnn llllllllllllllll`. -/
theorem test_decode_ldm :
    decodeWord 0b00101001000100111100001101011010#32 = .ok (.ldm .cs true false false false 3#4 0xc35a#16) := by
  decide

/-- `cccc 100 P U S W 0 nnnn llllllllllllllll`. -/
theorem test_decode_stm :
    decodeWord 0b00111000011000011100001101011010#32 = .ok (.stm .cc false false true true 1#4 0xc35a#16) := by
  decide

/-- `cccc 1010 iiiiiiiiiiiiiiiiiiiiiiii`. -/
theorem test_decode_b :
    decodeWord 0b01001010100110100101001111000001#32 = .ok (.b .mi 0x9a53c1#24) := by
  decide

/-- `cccc 1011 iiiiiiiiiiiiiiiiiiiiiiii`. -/
theorem test_decode_bl :
    decodeWord 0b01011011100110100101001111000001#32 = .ok (.bl .pl 0x9a53c1#24) := by
  decide

/-- `cccc 1111 iiiiiiiiiiiiiiiiiiiiiiii`. -/
theorem test_decode_swi :
    decodeWord 0b01101111100110100101001111000001#32 = .ok (.swi .vs 0x9a53c1#24) := by
  decide

/-- `cccc 011 xxxxxxxxxxxxxxxxxxxx 1 xxxx`. -/
theorem test_decode_undefined :
    decodeWord 0b01110111000110100011010010111010#32 = .ok (.undefined .vc 0x8d1a5#20 0xa#4) := by
  decide

/-- `cccc 110 P U N W 1 nnnn dddd pppp iiiiiiii`. -/
theorem test_decode_ldc :
    decodeWord 0b10001101100100110111110110100110#32 = .ok (.ldc .hi true true false false 3#4 7#4 13#4 0xa6#8) := by
  decide

/-- `cccc 110 P U N W 0 nnnn dddd pppp iiiiiiii`. -/
theorem test_decode_stc :
    decodeWord 0b10011100111000011000110110100110#32 = .ok (.stc .ls false true true true 1#4 8#4 13#4 0xa6#8) := by
  decide

/-- `cccc 1110 oooo nnnn dddd pppp qqq 0 mmmm`. -/
theorem test_decode_cdp :
    decodeWord 0b10101110101100100101110110101100#32 = .ok (.cdp .ge 11#4 2#4 5#4 13#4 5#3 12#4) := by
  decide

/-- `cccc 1110 ooo 0 nnnn dddd pppp qqq 1 mmmm`. -/
theorem test_decode_mcr :
    decodeWord 0b10111110110000110110110110111011#32 = .ok (.mcr .lt 6#3 3#4 6#4 13#4 5#3 11#4) := by
  decide

/-- `cccc 1110 ooo 1 nnnn dddd pppp qqq 1 mmmm`. -/
theorem test_decode_mrc :
    decodeWord 0b11001110110100010111110110111100#32 = .ok (.mrc .gt 6#3 1#4 7#4 13#4 5#3 12#4) := by
  decide


/-! Words that hold no instruction (V65). -/

theorem test_decode_never : decodeWord 0xF0000000#32 = .error .condNever := by decide
theorem test_decode_blx_absent : decodeWord 0xE12FFF30#32 = .error .blxAbsent := by decide
theorem test_decode_signed_store : decodeWord 0xE1C100D0#32 = .error .signedStore ∧ decodeWord 0xE1C100F0#32 = .error .signedStore := by
  refine ⟨?_, ?_⟩ <;> decide
theorem test_decode_unallocated :
    decodeWord 0xE1200090#32 = .error .unallocated ∧ decodeWord 0xE1600090#32 = .error .unallocated ∧
    decodeWord 0xE1000000#32 = .error .unallocated ∧ decodeWord 0xE3000000#32 = .error .unallocated := by
  refine ⟨?_, ?_, ?_, ?_⟩ <;> decide

/-! Well-formedness: one ill-formed term for each restriction. -/

theorem test_illformed_registerShiftPc : (.addShReg .al false 1#4 0#4 15#4 .lsl 2#4 : Instr).restriction = some .registerShiftPc ∧ (.addShReg .al false 1#4 0#4 15#4 .lsl 2#4 : Instr).wellFormed = false := ⟨by decide, by decide⟩
theorem test_illformed_multiplyPc : (.mul .al false 0#4 15#4 1#4 : Instr).restriction = some .multiplyPc ∧ (.mul .al false 0#4 15#4 1#4 : Instr).wellFormed = false := ⟨by decide, by decide⟩
theorem test_illformed_multiplyOverlap : (.mla .al false 1#4 3#4 2#4 1#4 : Instr).restriction = some .multiplyOverlap ∧ (.mla .al false 1#4 3#4 2#4 1#4 : Instr).wellFormed = false := ⟨by decide, by decide⟩
theorem test_illformed_multiplyOverlap2 : (.umull .al false 1#4 1#4 2#4 3#4 : Instr).restriction = some .multiplyOverlap ∧ (.umull .al false 1#4 1#4 2#4 3#4 : Instr).wellFormed = false := ⟨by decide, by decide⟩
theorem test_illformed_swapPc : (.swp .al 1#4 0#4 15#4 : Instr).restriction = some .swapPc ∧ (.swp .al 1#4 0#4 15#4 : Instr).wellFormed = false := ⟨by decide, by decide⟩
theorem test_illformed_swapOverlap : (.swpb .al 1#4 0#4 1#4 : Instr).restriction = some .swapOverlap ∧ (.swpb .al 1#4 0#4 1#4 : Instr).wellFormed = false := ⟨by decide, by decide⟩
theorem test_illformed_statusPc : (.mrs .al false 15#4 : Instr).restriction = some .statusPc ∧ (.mrs .al false 15#4 : Instr).wellFormed = false := ⟨by decide, by decide⟩
theorem test_illformed_statusPc2 : (.msrReg .al true 9#4 15#4 : Instr).restriction = some .statusPc ∧ (.msrReg .al true 9#4 15#4 : Instr).wellFormed = false := ⟨by decide, by decide⟩
theorem test_illformed_offsetPc : (.ldrReg .al true false 1#4 0#4 0#5 .lsl 15#4 : Instr).restriction = some .offsetPc ∧ (.ldrReg .al true false 1#4 0#4 0#5 .lsl 15#4 : Instr).wellFormed = false := ⟨by decide, by decide⟩
theorem test_illformed_writebackPc : (.ldrImmPost .al true 15#4 0#4 4#12 : Instr).restriction = some .writebackPc ∧ (.ldrImmPost .al true 15#4 0#4 4#12 : Instr).wellFormed = false := ⟨by decide, by decide⟩
theorem test_illformed_writebackData : (.strImm .al true true 1#4 1#4 4#12 : Instr).restriction = some .writebackData ∧ (.strImm .al true true 1#4 1#4 4#12 : Instr).wellFormed = false := ⟨by decide, by decide⟩
theorem test_illformed_writebackOffset : (.ldrhReg .al .preIndexed true 1#4 0#4 1#4 : Instr).restriction = some .writebackOffset ∧ (.ldrhReg .al .preIndexed true 1#4 0#4 1#4 : Instr).wellFormed = false := ⟨by decide, by decide⟩
theorem test_illformed_postWriteback : (.strhImm .al .postIndexedW true 1#4 0#4 0#4 0#4 : Instr).restriction = some .postWriteback ∧ (.strhImm .al .postIndexedW true 1#4 0#4 0#4 0#4 : Instr).wellFormed = false := ⟨by decide, by decide⟩
theorem test_illformed_narrowPc : (.ldrbImm .al true false 1#4 15#4 0#12 : Instr).restriction = some .narrowPc ∧ (.ldrbImm .al true false 1#4 15#4 0#12 : Instr).wellFormed = false := ⟨by decide, by decide⟩
theorem test_illformed_emptyList : (.ldm .al false true false false 0#4 0#16 : Instr).restriction = some .emptyList ∧ (.ldm .al false true false false 0#4 0#16 : Instr).wellFormed = false := ⟨by decide, by decide⟩
theorem test_illformed_blockBasePc : (.stm .al false true false false 15#4 1#16 : Instr).restriction = some .blockBasePc ∧ (.stm .al false true false false 15#4 1#16 : Instr).wellFormed = false := ⟨by decide, by decide⟩
theorem test_illformed_storedBase : (.stm .al false true false true 1#4 3#16 : Instr).restriction = some .storedBase ∧ (.stm .al false true false true 1#4 3#16 : Instr).wellFormed = false := ⟨by decide, by decide⟩
theorem test_illformed_loadedBase : (.ldm .al false true false true 0#4 3#16 : Instr).restriction = some .loadedBase ∧ (.ldm .al false true false true 0#4 3#16 : Instr).wellFormed = false := ⟨by decide, by decide⟩
theorem test_illformed_userBankWriteback : (.ldm .al false true true true 0#4 2#16 : Instr).restriction = some .userBankWriteback ∧ (.ldm .al false true true true 0#4 2#16 : Instr).wellFormed = false := ⟨by decide, by decide⟩
theorem test_wellformed_stm_lowest_base : (.stm .al false true false true 0#4 3#16 : Instr).wellFormed = true := by decide

end Sys2Proof

namespace Sys2Proof.Machine

/-! One step. -/

/-- The data memory of the vectors. -/
def dataMem : Memory :=
  Memory.writeSize (Memory.writeSize (Memory.writeSize (Memory.writeSize [] 0x1000#32 0x11223344#32 .word)
    0x1004#32 0x55667788#32 .word) 0x1008#32 0x99AABBCC#32 .word) 0x100C#32 0xDDEEFF00#32 .word

/-- At 0x8000, with a CPSR, registers of its mode, and the data memory of the vectors. -/
def start (cpsr : Word) (l : List (RegNum × Word)) : State :=
  l.foldl (fun s p => s.setReg p.1 p.2) (((State.reset.setPc 0x8000#32).setCpsr cpsr).setMem dataMem)

/-- Supervisor mode with flags N Z C V. -/
def svc (nzcv : BitVec 4) : Word := nzcv ++ 0x00000D3#28

/-- One step that runs the word at this state. -/
def runs (s : State) (w : Nat) : Result := step (s.withFetchWord 32 w)

/-- The step answers a next state of which `p` holds. -/
def gives (r : Result) (p : State → Bool) : Bool :=
  match r with
  | .next t => p t
  | .fault _ => false
  | .refused _ => false

/-- The step ends at this PC with this CPSR, these registers of the new mode and these words of memory. -/
def ends (r : Result) (pc cpsr : Word) (regs : List (RegNum × Word)) (words : List (Word × Word)) : Bool :=
  gives r fun t => t.pc == pc && t.cpsr == cpsr && regs.all (fun p => t.reg p.1 == p.2) &&
    words.all (fun p => t.mem.readSize p.1 .word == p.2)

/-! Data processing: immediate forms. -/

/-- Hand calculation. -/
theorem test_and_imm : ends (runs (start (svc 1#4) [(0#4, 0x00000077#32), (1#4, 0xF00000FF#32)]) 0xE21104FF) 0x00008004#32 (svc 11#4) [(0#4, 0xF0000000#32)] [] = true := by decide
/-- Hand calculation. -/
theorem test_eor_imm : ends (runs (start (svc 2#4) [(0#4, 0x00000077#32), (1#4, 0x000000FF#32)]) 0xE231000F) 0x00008004#32 (svc 2#4) [(0#4, 0x000000F0#32)] [] = true := by decide
/-- Hand calculation. -/
theorem test_sub_imm : ends (runs (start (svc 0#4) [(0#4, 0x00000077#32), (1#4, 0x00000005#32)]) 0xE2510005) 0x00008004#32 (svc 6#4) [(0#4, 0x00000000#32)] [] = true := by decide
/-- V30. -/
theorem test_rsb_imm : ends (runs (start (svc 0#4) [(0#4, 0x00000077#32), (1#4, 0x80000000#32)]) 0xE2710000) 0x00008004#32 (svc 9#4) [(0#4, 0x80000000#32)] [] = true := by decide
/-- Hand calculation. -/
theorem test_add_imm : ends (runs (start (svc 0#4) [(0#4, 0x00000077#32), (1#4, 0x7FFFFFFF#32)]) 0xE2910001) 0x00008004#32 (svc 9#4) [(0#4, 0x80000000#32)] [] = true := by decide
/-- Hand calculation. -/
theorem test_adc_imm : ends (runs (start (svc 2#4) [(0#4, 0x00000077#32), (1#4, 0xFFFFFFFF#32)]) 0xE2B10000) 0x00008004#32 (svc 6#4) [(0#4, 0x00000000#32)] [] = true := by decide
/-- Hand calculation. -/
theorem test_sbc_imm : ends (runs (start (svc 0#4) [(0#4, 0x00000077#32), (1#4, 0x00000005#32)]) 0xE2D10005) 0x00008004#32 (svc 8#4) [(0#4, 0xFFFFFFFF#32)] [] = true := by decide
/-- Hand calculation. -/
theorem test_rsc_imm : ends (runs (start (svc 0#4) [(0#4, 0x00000077#32), (1#4, 0x00000003#32)]) 0xE2F1000A) 0x00008004#32 (svc 2#4) [(0#4, 0x00000006#32)] [] = true := by decide
/-- Hand calculation. -/
theorem test_tst_imm : ends (runs (start (svc 3#4) [(0#4, 0x00000077#32), (1#4, 0x000000F0#32)]) 0xE311000F) 0x00008004#32 (svc 7#4) [(0#4, 0x00000077#32)] [] = true := by decide
/-- Hand calculation. -/
theorem test_teq_imm : ends (runs (start (svc 3#4) [(0#4, 0x00000077#32), (1#4, 0x80000000#32)]) 0xE3310000) 0x00008004#32 (svc 11#4) [(0#4, 0x00000077#32)] [] = true := by decide
/-- Hand calculation. -/
theorem test_cmp_imm : ends (runs (start (svc 0#4) [(0#4, 0x00000077#32), (1#4, 0x00000002#32)]) 0xE3510003) 0x00008004#32 (svc 8#4) [(0#4, 0x00000077#32)] [] = true := by decide
/-- Hand calculation. -/
theorem test_cmn_imm : ends (runs (start (svc 0#4) [(0#4, 0x00000077#32), (1#4, 0xFFFFFFFF#32)]) 0xE3710001) 0x00008004#32 (svc 6#4) [(0#4, 0x00000077#32)] [] = true := by decide
/-- As V31. -/
theorem test_orr_imm : ends (runs (start (svc 2#4) [(0#4, 0x00000077#32), (1#4, 0x80000000#32)]) 0xE3910001) 0x00008004#32 (svc 10#4) [(0#4, 0x80000001#32)] [] = true := by decide
/-- V27. -/
theorem test_mov_imm : ends (runs (start (svc 0#4) [(0#4, 0x00000077#32), (1#4, 0x00000000#32)]) 0xE3B00102) 0x00008004#32 (svc 10#4) [(0#4, 0x80000000#32)] [] = true := by decide
/-- Hand calculation. -/
theorem test_bic_imm : ends (runs (start (svc 0#4) [(0#4, 0x00000077#32), (1#4, 0xFFFFFFFF#32)]) 0xE3D100FF) 0x00008004#32 (svc 8#4) [(0#4, 0xFFFFFF00#32)] [] = true := by decide
/-- Hand calculation. -/
theorem test_mvn_imm : ends (runs (start (svc 1#4) [(0#4, 0x00000077#32), (1#4, 0x00000000#32)]) 0xE3F00000) 0x00008004#32 (svc 9#4) [(0#4, 0xFFFFFFFF#32)] [] = true := by decide

/-! Data processing: shift by an immediate. -/

/-- V31. -/
theorem test_and_shImm : ends (runs (start (svc 3#4) [(0#4, 0x00000077#32), (1#4, 0xFF00FF00#32), (2#4, 0x0FF00FF0#32)]) 0xE0110002) 0x00008004#32 (svc 3#4) [(0#4, 0x0F000F00#32)] [] = true := by decide
/-- V31. -/
theorem test_eor_shImm : ends (runs (start (svc 1#4) [(0#4, 0x00000077#32), (1#4, 0xFFFFFFFF#32), (2#4, 0xFFFFFFFF#32)]) 0xE0310002) 0x00008004#32 (svc 5#4) [(0#4, 0x00000000#32)] [] = true := by decide
/-- V30. -/
theorem test_sub_shImm : ends (runs (start (svc 0#4) [(0#4, 0x00000077#32), (1#4, 0x80000000#32), (2#4, 0x00000001#32)]) 0xE0510002) 0x00008004#32 (svc 3#4) [(0#4, 0x7FFFFFFF#32)] [] = true := by decide
/-- Hand calculation. -/
theorem test_rsb_shImm : ends (runs (start (svc 0#4) [(0#4, 0x00000077#32), (1#4, 0x00000001#32), (2#4, 0x00000001#32)]) 0xE0710082) 0x00008004#32 (svc 2#4) [(0#4, 0x00000001#32)] [] = true := by decide
/-- V3. -/
theorem test_add_shImm : ends (runs (start (svc 0#4) [(0#4, 0x00000077#32), (1#4, 0x7FFFFFFF#32), (2#4, 0x00000001#32)]) 0xE0910002) 0x00008004#32 (svc 9#4) [(0#4, 0x80000000#32)] [] = true := by decide
/-- V30. -/
theorem test_adc_shImm : ends (runs (start (svc 2#4) [(0#4, 0x00000077#32), (1#4, 0x7FFFFFFF#32), (2#4, 0x00000000#32)]) 0xE0B10002) 0x00008004#32 (svc 9#4) [(0#4, 0x80000000#32)] [] = true := by decide
/-- V30. -/
theorem test_sbc_shImm : ends (runs (start (svc 0#4) [(0#4, 0x00000077#32), (1#4, 0x0000000A#32), (2#4, 0x00000003#32)]) 0xE0D10002) 0x00008004#32 (svc 2#4) [(0#4, 0x00000006#32)] [] = true := by decide
/-- V30. -/
theorem test_rsc_shImm : ends (runs (start (svc 2#4) [(0#4, 0x00000077#32), (1#4, 0x00000003#32), (2#4, 0x0000000A#32)]) 0xE0F10002) 0x00008004#32 (svc 2#4) [(0#4, 0x00000007#32)] [] = true := by decide
/-- V31. -/
theorem test_tst_shImm : ends (runs (start (svc 3#4) [(0#4, 0x00000077#32), (1#4, 0x000000F0#32), (2#4, 0x0000000F#32)]) 0xE1110002) 0x00008004#32 (svc 7#4) [(0#4, 0x00000077#32)] [] = true := by decide
/-- V31. -/
theorem test_teq_shImm : ends (runs (start (svc 3#4) [(0#4, 0x00000077#32), (1#4, 0x80000000#32), (2#4, 0x00000000#32)]) 0xE1310002) 0x00008004#32 (svc 11#4) [(0#4, 0x00000077#32)] [] = true := by decide
/-- V30. -/
theorem test_cmp_shImm : ends (runs (start (svc 0#4) [(0#4, 0x00000077#32), (1#4, 0x00000001#32), (2#4, 0x80000000#32)]) 0xE1510002) 0x00008004#32 (svc 9#4) [(0#4, 0x00000077#32)] [] = true := by decide
/-- V30. -/
theorem test_cmn_shImm : ends (runs (start (svc 0#4) [(0#4, 0x00000077#32), (1#4, 0xFFFFFFFF#32), (2#4, 0x00000001#32)]) 0xE1710002) 0x00008004#32 (svc 6#4) [(0#4, 0x00000077#32)] [] = true := by decide
/-- V31. -/
theorem test_bic_shImm : ends (runs (start (svc 0#4) [(0#4, 0x00000077#32), (1#4, 0xFFFFFFFF#32), (2#4, 0x0000FFFF#32)]) 0xE1D10002) 0x00008004#32 (svc 8#4) [(0#4, 0xFFFF0000#32)] [] = true := by decide
/-- V4. -/
theorem test_orr_shImm : ends (runs (start (svc 5#4) [(2#4, 0x0000000F#32), (3#4, 0x12345678#32)]) 0xE1821203) 0x00008004#32 (svc 5#4) [(1#4, 0x2345678F#32)] [] = true := by decide
/-- V25, RRX. -/
theorem test_mov_shImm : ends (runs (start (svc 2#4) [(1#4, 0x80000001#32)]) 0xE1B00061) 0x00008004#32 (svc 10#4) [(0#4, 0xC0000000#32)] [] = true := by decide
/-- V25, LSR #32. -/
theorem test_mov_shImm_2 : ends (runs (start (svc 0#4) [(1#4, 0x80000001#32)]) 0xE1B00021) 0x00008004#32 (svc 6#4) [(0#4, 0x00000000#32)] [] = true := by decide
/-- V5. -/
theorem test_mvn_shImm : ends (runs (start (svc 5#4) [(1#4, 0x12345678#32)]) 0xE1E00001) 0x00008004#32 (svc 5#4) [(0#4, 0xEDCBA987#32)] [] = true := by decide

/-! Data processing: shift by a register. -/

/-- V31. -/
theorem test_and_shReg : ends (runs (start (svc 0#4) [(0#4, 0x00000077#32), (1#4, 0xFFFFFFFF#32), (2#4, 0x80000001#32), (3#4, 0x00000001#32)]) 0xE0110332) 0x00008004#32 (svc 2#4) [(0#4, 0x40000000#32)] [] = true := by decide
/-- Hand calculation. -/
theorem test_eor_shReg : ends (runs (start (svc 3#4) [(0#4, 0x00000077#32), (1#4, 0x000000FF#32), (2#4, 0x0000000F#32), (3#4, 0x00000004#32)]) 0xE0310312) 0x00008004#32 (svc 1#4) [(0#4, 0x0000000F#32)] [] = true := by decide
/-- Hand calculation. -/
theorem test_sub_shReg : ends (runs (start (svc 0#4) [(0#4, 0x00000077#32), (1#4, 0x0000000A#32), (2#4, 0x00000010#32), (3#4, 0x00000002#32)]) 0xE0510332) 0x00008004#32 (svc 2#4) [(0#4, 0x00000006#32)] [] = true := by decide
/-- Hand calculation. -/
theorem test_rsb_shReg : ends (runs (start (svc 0#4) [(0#4, 0x00000077#32), (1#4, 0x00000001#32), (2#4, 0x80000000#32), (3#4, 0x0000001F#32)]) 0xE0710352) 0x00008004#32 (svc 10#4) [(0#4, 0xFFFFFFFE#32)] [] = true := by decide
/-- Hand calculation. -/
theorem test_add_shReg : ends (runs (start (svc 0#4) [(0#4, 0x00000077#32), (1#4, 0x00000001#32), (2#4, 0x00000001#32), (3#4, 0x00000001#32)]) 0xE0910372) 0x00008004#32 (svc 8#4) [(0#4, 0x80000001#32)] [] = true := by decide
/-- Hand calculation. -/
theorem test_adc_shReg : ends (runs (start (svc 2#4) [(0#4, 0x00000077#32), (1#4, 0x00000007#32), (2#4, 0xFFFFFFFF#32), (3#4, 0x00000020#32)]) 0xE0B10312) 0x00008004#32 (svc 0#4) [(0#4, 0x00000008#32)] [] = true := by decide
/-- Hand calculation. -/
theorem test_sbc_shReg : ends (runs (start (svc 0#4) [(0#4, 0x00000077#32), (1#4, 0x00000007#32), (2#4, 0xFFFFFFFF#32), (3#4, 0x00000021#32)]) 0xE0D10332) 0x00008004#32 (svc 2#4) [(0#4, 0x00000006#32)] [] = true := by decide
/-- Hand calculation. -/
theorem test_rsc_shReg : ends (runs (start (svc 2#4) [(0#4, 0x00000077#32), (1#4, 0x00000003#32), (2#4, 0x0000000A#32), (3#4, 0x00000100#32)]) 0xE0F10312) 0x00008004#32 (svc 2#4) [(0#4, 0x00000007#32)] [] = true := by decide
/-- Hand calculation. -/
theorem test_tst_shReg : ends (runs (start (svc 1#4) [(0#4, 0x00000077#32), (1#4, 0x80000000#32), (2#4, 0x00000001#32), (3#4, 0x00000021#32)]) 0xE1110372) 0x00008004#32 (svc 11#4) [(0#4, 0x00000077#32)] [] = true := by decide
/-- Hand calculation. -/
theorem test_teq_shReg : ends (runs (start (svc 0#4) [(0#4, 0x00000077#32), (1#4, 0x00000000#32), (2#4, 0x80000000#32), (3#4, 0x00000020#32)]) 0xE1310352) 0x00008004#32 (svc 10#4) [(0#4, 0x00000077#32)] [] = true := by decide
/-- Hand calculation. -/
theorem test_cmp_shReg : ends (runs (start (svc 0#4) [(0#4, 0x00000077#32), (1#4, 0x00000008#32), (2#4, 0x00000001#32), (3#4, 0x00000003#32)]) 0xE1510312) 0x00008004#32 (svc 6#4) [(0#4, 0x00000077#32)] [] = true := by decide
/-- Hand calculation. -/
theorem test_cmn_shReg : ends (runs (start (svc 0#4) [(0#4, 0x00000077#32), (1#4, 0x7FFFFFFF#32), (2#4, 0x00000001#32), (3#4, 0x00000000#32)]) 0xE1710312) 0x00008004#32 (svc 9#4) [(0#4, 0x00000077#32)] [] = true := by decide
/-- Hand calculation. -/
theorem test_orr_shReg : ends (runs (start (svc 0#4) [(0#4, 0x00000077#32), (1#4, 0x00000001#32), (2#4, 0x00000080#32), (3#4, 0x00000008#32)]) 0xE1910332) 0x00008004#32 (svc 2#4) [(0#4, 0x00000001#32)] [] = true := by decide
/-- Hand calculation. -/
theorem test_bic_shReg : ends (runs (start (svc 2#4) [(0#4, 0x00000077#32), (1#4, 0x000000FF#32), (2#4, 0x00000001#32), (3#4, 0x00000004#32)]) 0xE1D10312) 0x00008004#32 (svc 0#4) [(0#4, 0x000000EF#32)] [] = true := by decide
/-- Hand calculation. -/
theorem test_mvn_shReg : ends (runs (start (svc 0#4) [(0#4, 0x00000077#32), (1#4, 0x00000000#32), (2#4, 0x00000001#32), (3#4, 0x0000001F#32)]) 0xE1F00312) 0x00008004#32 (svc 0#4) [(0#4, 0x7FFFFFFF#32)] [] = true := by decide
/-- V26. -/
theorem test_mov_shReg : ends (runs (start (svc 0#4) [(1#4, 0x80000001#32), (2#4, 0x0000001F#32)]) 0xE1B00271) 0x00008004#32 (svc 0#4) [(0#4, 0x00000003#32)] [] = true := by decide
/-- V26. -/
theorem test_mov_shReg_2 : ends (runs (start (svc 0#4) [(1#4, 0x80000001#32), (2#4, 0x000000FF#32)]) 0xE1B00251) 0x00008004#32 (svc 10#4) [(0#4, 0xFFFFFFFF#32)] [] = true := by decide

/-! Conditions and R15. -/

/-- V2. -/
theorem test_condition_fails : ends (runs (start (svc 6#4) [(1#4, 0xAAAAAAAA#32), (2#4, 0x00000001#32)]) 0x42821102) 0x00008004#32 (svc 6#4) [(1#4, 0xAAAAAAAA#32)] [] = true := by decide
/-- V2. -/
theorem test_condition_passes : ends (runs (start (svc 8#4) [(1#4, 0xAAAAAAAA#32), (2#4, 0x00000001#32)]) 0x42821102) 0x00008004#32 (svc 8#4) [(1#4, 0x80000001#32)] [] = true := by decide
/-- V32. -/
theorem test_read_pc : ends (runs (start (svc 0#4) []) 0xE28F0008) 0x00008004#32 (svc 0#4) [(0#4, 0x00008010#32)] [] = true := by decide
/-- V32. -/
theorem test_write_pc : ends (runs (start (svc 0#4) [(14#4, 0x00008013#32)]) 0xE1A0F00E) 0x00008010#32 (svc 0#4) [] [] = true := by decide

/-! Multiplication (C, and V of the long ones, are left open by the spec, so the flagged forms are looked at by field). -/

/-- V55. -/
theorem test_mul_flagged : gives (runs (start (svc 0#4) [(1#4, 0xFFFFFFFF#32), (2#4, 0x00000002#32)]) 0xE0100291) (fun t => t.pc == 0x8004#32) = true := by decide
/-- V55. -/
theorem test_mul : ends (runs (start (svc 5#4) [(1#4, 0x12345678#32), (2#4, 0x9ABCDEF0#32)]) 0xE0000291) 0x00008004#32 (svc 5#4) [(0#4, 0x242D2080#32)] [] = true := by decide
/-- V55. -/
theorem test_mla : ends (runs (start (svc 5#4) [(1#4, 0xFFFFFFFF#32), (2#4, 0x00000002#32), (3#4, 0x00000003#32)]) 0xE0203291) 0x00008004#32 (svc 5#4) [(0#4, 0x00000001#32)] [] = true := by decide
/-- V55. -/
theorem test_umull : ends (runs (start (svc 5#4) [(2#4, 0x12345678#32), (3#4, 0x9ABCDEF0#32)]) 0xE0810392) 0x00008004#32 (svc 5#4) [(1#4, 0x0B00EA4E#32), (0#4, 0x242D2080#32)] [] = true := by decide
/-- V55. -/
theorem test_smull : ends (runs (start (svc 5#4) [(2#4, 0x12345678#32), (3#4, 0x9ABCDEF0#32)]) 0xE0C10392) 0x00008004#32 (svc 5#4) [(1#4, 0xF8CC93D6#32), (0#4, 0x242D2080#32)] [] = true := by decide
/-- V55. -/
theorem test_smull_flagged : gives (runs (start (svc 0#4) [(2#4, 0x80000000#32), (3#4, 0x00000001#32)]) 0xE0D10392) (fun t => t.pc == 0x8004#32) = true := by decide
/-- V55. -/
theorem test_umlal : ends (runs (start (svc 5#4) [(1#4, 0x00000000#32), (0#4, 0xFFFFFFFF#32), (2#4, 0x00000001#32), (3#4, 0x00000002#32)]) 0xE0A10392) 0x00008004#32 (svc 5#4) [(1#4, 0x00000001#32), (0#4, 0x00000001#32)] [] = true := by decide
/-- V55. -/
theorem test_smlal : ends (runs (start (svc 5#4) [(1#4, 0x00000000#32), (0#4, 0x00000000#32), (2#4, 0xFFFFFFFE#32), (3#4, 0x00000003#32)]) 0xE0E10392) 0x00008004#32 (svc 5#4) [(1#4, 0xFFFFFFFF#32), (0#4, 0xFFFFFFFA#32)] [] = true := by decide
/-- N and Z of the MULS and SMULLS above, V55. -/
theorem test_mul_flags (s : State) : psrN (s.setMulFlags 0xFFFFFFFE#32).cpsr = true ∧ psrZ (s.setMulFlags 0xFFFFFFFE#32).cpsr = false := by
  refine ⟨?_, ?_⟩ <;> simp [State.setMulFlags, State.draw, State.setCpsr]; decide
theorem test_mull_flags (s : State) :
    psrN (s.setMullFlags 0xFFFFFFFF80000000#64).cpsr = true ∧ psrZ (s.setMullFlags 0xFFFFFFFF80000000#64).cpsr = false := by
  refine ⟨?_, ?_⟩ <;> simp [State.setMullFlags, State.draw, State.setCpsr]


/-! Single transfers and swaps. -/

/-- V40. -/
theorem test_ldr_imm : ends (runs (start (svc 5#4) [(1#4, 0x00001000#32)]) 0xE5B10004) 0x00008004#32 (svc 5#4) [(0#4, 0x55667788#32), (1#4, 0x00001004#32)] [] = true := by decide
/-- V41, rotated. -/
theorem test_ldr_imm_2 : ends (runs (start (svc 5#4) [(1#4, 0x00001001#32)]) 0xE5910000) 0x00008004#32 (svc 5#4) [(0#4, 0x44112233#32)] [] = true := by decide
/-- V40. -/
theorem test_ldr_imm_post : ends (runs (start (svc 5#4) [(1#4, 0x00001000#32)]) 0xE4910004) 0x00008004#32 (svc 5#4) [(0#4, 0x11223344#32), (1#4, 0x00001004#32)] [] = true := by decide
/-- V40. -/
theorem test_ldr_reg : ends (runs (start (svc 5#4) [(1#4, 0x0000100C#32), (2#4, 0x00000008#32)]) 0xE7110002) 0x00008004#32 (svc 5#4) [(0#4, 0x55667788#32)] [] = true := by decide
/-- Hand calculation. -/
theorem test_ldr_reg_post : ends (runs (start (svc 5#4) [(1#4, 0x00001004#32), (2#4, 0x00000001#32)]) 0xE6910102) 0x00008004#32 (svc 5#4) [(0#4, 0x55667788#32), (1#4, 0x00001008#32)] [] = true := by decide
/-- V40. -/
theorem test_str_imm : ends (runs (start (svc 5#4) [(0#4, 0xCAFEBABE#32), (1#4, 0x00001008#32)]) 0xE5210004) 0x00008004#32 (svc 5#4) [(1#4, 0x00001004#32)] [(0x00001004#32, 0xCAFEBABE#32), (0x00001000#32, 0x11223344#32)] = true := by decide
/-- V32, R15 stored. -/
theorem test_str_imm_2 : ends (runs (start (svc 5#4) [(1#4, 0x00001000#32)]) 0xE581F000) 0x00008004#32 (svc 5#4) [] [(0x00001000#32, 0x0000800C#32)] = true := by decide
/-- Hand calculation. -/
theorem test_str_imm_post : ends (runs (start (svc 5#4) [(0#4, 0xCAFEBABE#32), (1#4, 0x00001003#32)]) 0xE4810004) 0x00008004#32 (svc 5#4) [(1#4, 0x00001007#32)] [(0x00001000#32, 0xCAFEBABE#32), (0x00001004#32, 0x55667788#32)] = true := by decide
/-- Hand calculation. -/
theorem test_str_reg : ends (runs (start (svc 5#4) [(0#4, 0xCAFEBABE#32), (1#4, 0x00001000#32), (2#4, 0x00000001#32)]) 0xE7810102) 0x00008004#32 (svc 5#4) [(1#4, 0x00001000#32)] [(0x00001004#32, 0xCAFEBABE#32)] = true := by decide
/-- Hand calculation. -/
theorem test_str_reg_post : ends (runs (start (svc 5#4) [(0#4, 0xCAFEBABE#32), (1#4, 0x00001004#32), (2#4, 0x00000004#32)]) 0xE6010002) 0x00008004#32 (svc 5#4) [(1#4, 0x00001000#32)] [(0x00001004#32, 0xCAFEBABE#32), (0x00001000#32, 0x11223344#32)] = true := by decide
/-- V40. -/
theorem test_ldrb_imm : ends (runs (start (svc 5#4) [(1#4, 0x00001008#32)]) 0xE5D10003) 0x00008004#32 (svc 5#4) [(0#4, 0x00000099#32)] [] = true := by decide
/-- Hand calculation. -/
theorem test_ldrb_imm_post : ends (runs (start (svc 5#4) [(1#4, 0x00001001#32)]) 0xE4D10001) 0x00008004#32 (svc 5#4) [(0#4, 0x00000033#32), (1#4, 0x00001002#32)] [] = true := by decide
/-- Hand calculation. -/
theorem test_ldrb_reg : ends (runs (start (svc 5#4) [(1#4, 0x00001000#32), (2#4, 0x00000003#32)]) 0xE7D10002) 0x00008004#32 (svc 5#4) [(0#4, 0x00000011#32)] [] = true := by decide
/-- Hand calculation. -/
theorem test_ldrb_reg_post : ends (runs (start (svc 5#4) [(1#4, 0x00001002#32), (2#4, 0x00000002#32)]) 0xE6D10002) 0x00008004#32 (svc 5#4) [(0#4, 0x00000022#32), (1#4, 0x00001004#32)] [] = true := by decide
/-- V40. -/
theorem test_strb_imm : ends (runs (start (svc 5#4) [(0#4, 0xCAFEBABE#32), (1#4, 0x00001000#32)]) 0xE5C10001) 0x00008004#32 (svc 5#4) [] [(0x00001000#32, 0x1122BE44#32)] = true := by decide
/-- V40. -/
theorem test_strb_imm_post : ends (runs (start (svc 5#4) [(0#4, 0x00001003#32), (3#4, 0x000000AB#32)]) 0xE4C03001) 0x00008004#32 (svc 5#4) [(0#4, 0x00001004#32)] [(0x00001000#32, 0xAB223344#32)] = true := by decide
/-- Hand calculation. -/
theorem test_strb_reg : ends (runs (start (svc 5#4) [(0#4, 0xCAFEBABE#32), (1#4, 0x00001005#32), (2#4, 0x00000004#32)]) 0xE7410002) 0x00008004#32 (svc 5#4) [(1#4, 0x00001005#32)] [(0x00001000#32, 0x1122BE44#32)] = true := by decide
/-- Hand calculation. -/
theorem test_strb_reg_post : ends (runs (start (svc 5#4) [(0#4, 0xCAFEBABE#32), (1#4, 0x00001000#32), (2#4, 0x00000008#32)]) 0xE6C10002) 0x00008004#32 (svc 5#4) [(1#4, 0x00001008#32)] [(0x00001000#32, 0x112233BE#32)] = true := by decide
/-- V40. -/
theorem test_ldrt_imm : ends (runs (start (svc 5#4) [(1#4, 0x00001000#32)]) 0xE4B10004) 0x00008004#32 (svc 5#4) [(0#4, 0x11223344#32), (1#4, 0x00001004#32)] [] = true := by decide
/-- Hand calculation. -/
theorem test_ldrt_reg : ends (runs (start (svc 5#4) [(1#4, 0x00001008#32), (2#4, 0x00000002#32)]) 0xE6310082) 0x00008004#32 (svc 5#4) [(0#4, 0x99AABBCC#32), (1#4, 0x00001004#32)] [] = true := by decide
/-- Hand calculation. -/
theorem test_strt_imm : ends (runs (start (svc 5#4) [(0#4, 0xCAFEBABE#32), (1#4, 0x00001004#32)]) 0xE4210004) 0x00008004#32 (svc 5#4) [(1#4, 0x00001000#32)] [(0x00001004#32, 0xCAFEBABE#32)] = true := by decide
/-- Hand calculation. -/
theorem test_strt_reg : ends (runs (start (svc 5#4) [(0#4, 0xCAFEBABE#32), (1#4, 0x00001000#32), (2#4, 0x00000004#32)]) 0xE6A10002) 0x00008004#32 (svc 5#4) [(1#4, 0x00001004#32)] [(0x00001000#32, 0xCAFEBABE#32)] = true := by decide
/-- Hand calculation. -/
theorem test_ldrbt_imm : ends (runs (start (svc 5#4) [(1#4, 0x00001003#32)]) 0xE4F10001) 0x00008004#32 (svc 5#4) [(0#4, 0x00000011#32), (1#4, 0x00001004#32)] [] = true := by decide
/-- Hand calculation. -/
theorem test_ldrbt_reg : ends (runs (start (svc 5#4) [(1#4, 0x00001004#32), (2#4, 0x00000001#32)]) 0xE6F10002) 0x00008004#32 (svc 5#4) [(0#4, 0x00000088#32), (1#4, 0x00001005#32)] [] = true := by decide
/-- Hand calculation. -/
theorem test_strbt_imm : ends (runs (start (svc 5#4) [(0#4, 0xCAFEBABE#32), (1#4, 0x00001000#32)]) 0xE4E10001) 0x00008004#32 (svc 5#4) [(1#4, 0x00001001#32)] [(0x00001000#32, 0x112233BE#32)] = true := by decide
/-- Hand calculation. -/
theorem test_strbt_reg : ends (runs (start (svc 5#4) [(0#4, 0xCAFEBABE#32), (1#4, 0x00001003#32), (2#4, 0x00000003#32)]) 0xE6610002) 0x00008004#32 (svc 5#4) [(1#4, 0x00001000#32)] [(0x00001000#32, 0xBE223344#32)] = true := by decide
/-- V40. -/
theorem test_ldrh_imm : ends (runs (start (svc 5#4) [(1#4, 0x00001004#32)]) 0xE0D100B2) 0x00008004#32 (svc 5#4) [(0#4, 0x00007788#32), (1#4, 0x00001006#32)] [] = true := by decide
/-- Hand calculation. -/
theorem test_ldrh_reg : ends (runs (start (svc 5#4) [(1#4, 0x00001000#32), (2#4, 0x00000004#32)]) 0xE19100B2) 0x00008004#32 (svc 5#4) [(0#4, 0x00007788#32)] [] = true := by decide
/-- V40. -/
theorem test_strh_imm : ends (runs (start (svc 5#4) [(0#4, 0xCAFEBABE#32), (1#4, 0x00001000#32)]) 0xE1C100B2) 0x00008004#32 (svc 5#4) [] [(0x00001000#32, 0xBABE3344#32)] = true := by decide
/-- Hand calculation. -/
theorem test_strh_reg : ends (runs (start (svc 5#4) [(0#4, 0xCAFEBABE#32), (1#4, 0x00001006#32), (2#4, 0x00000002#32)]) 0xE12100B2) 0x00008004#32 (svc 5#4) [(1#4, 0x00001004#32)] [(0x00001004#32, 0x5566BABE#32)] = true := by decide
/-- V40. -/
theorem test_ldrsb_imm : ends (runs (start (svc 5#4) [(1#4, 0x00001008#32)]) 0xE1D100D0) 0x00008004#32 (svc 5#4) [(0#4, 0xFFFFFFCC#32)] [] = true := by decide
/-- V40. -/
theorem test_ldrsb_reg : ends (runs (start (svc 5#4) [(1#4, 0x00001000#32), (2#4, 0x0000000B#32)]) 0xE1B100D2) 0x00008004#32 (svc 5#4) [(0#4, 0xFFFFFF99#32), (1#4, 0x0000100B#32)] [] = true := by decide
/-- V40. -/
theorem test_ldrsh_imm : ends (runs (start (svc 5#4) [(1#4, 0x00001008#32)]) 0xE1D100F0) 0x00008004#32 (svc 5#4) [(0#4, 0xFFFFBBCC#32)] [] = true := by decide
/-- Hand calculation. -/
theorem test_ldrsh_reg : ends (runs (start (svc 5#4) [(1#4, 0x00001008#32), (2#4, 0x00000008#32)]) 0xE01100F2) 0x00008004#32 (svc 5#4) [(0#4, 0xFFFFBBCC#32), (1#4, 0x00001000#32)] [] = true := by decide
/-- V43. -/
theorem test_swp : ends (runs (start (svc 5#4) [(1#4, 0x00000055#32), (2#4, 0x00001001#32)]) 0xE1020091) 0x00008004#32 (svc 5#4) [(0#4, 0x44112233#32)] [(0x00001000#32, 0x00000055#32)] = true := by decide
/-- V43, Rd = Rm. -/
theorem test_swp_2 : ends (runs (start (svc 5#4) [(0#4, 0x12345678#32), (2#4, 0x00001004#32)]) 0xE1020090) 0x00008004#32 (svc 5#4) [(0#4, 0x55667788#32)] [(0x00001004#32, 0x12345678#32)] = true := by decide
/-- V43. -/
theorem test_swpb : ends (runs (start (svc 5#4) [(1#4, 0x000001FF#32), (2#4, 0x00001001#32)]) 0xE1420091) 0x00008004#32 (svc 5#4) [(0#4, 0x00000033#32)] [(0x00001000#32, 0x1122FF44#32)] = true := by decide

/-! Block transfers. -/

/-- As V45, incrementing before. -/
theorem test_ldm : ends (runs (start (svc 5#4) [(0#4, 0x00001000#32)]) 0xE9B00006) 0x00008004#32 (svc 5#4) [(1#4, 0x55667788#32), (2#4, 0x99AABBCC#32), (0#4, 0x00001008#32)] [] = true := by decide
/-- V45. -/
theorem test_ldm_loads_base : ends (runs (start (svc 5#4) [(0#4, 0x00001000#32)]) 0xE8900003) 0x00008004#32 (svc 5#4) [(0#4, 0x11223344#32), (1#4, 0x55667788#32)] [] = true := by decide
/-- V45. -/
theorem test_stm : ends (runs (start (svc 5#4) [(4#4, 0x00000007#32), (13#4, 0x00002000#32), (14#4, 0x00008010#32)]) 0xE92D4010) 0x00008004#32 (svc 5#4) [(13#4, 0x00001FF8#32)] [(0x00001FF8#32, 0x00000007#32), (0x00001FFC#32, 0x00008010#32)] = true := by decide
/-- V45. -/
theorem test_stm_stores_pc : ends (runs (start (svc 5#4) [(0#4, 0x00001000#32), (1#4, 0x00000009#32)]) 0xE8808002) 0x00008004#32 (svc 5#4) [(0#4, 0x00001000#32)] [(0x00001004#32, 0x0000800C#32), (0x00001000#32, 0x00000009#32)] = true := by decide

/-- LDM with ^ and no R15 loads the User bank (R215(b)). -/
theorem test_ldm_user_bank : gives (runs (start (svc 0#4) [(0#4, 0x1000#32), (13#4, 0x2000#32)]) 0xE8D02000)
    (fun t => t.preg 13 == 0x11223344#32 && t.reg 13#4 == 0x2000#32 && t.bankHazard) = true := by decide
/-- LDM with ^ and R15 restores CPSR (R215(a)). -/
theorem test_ldm_return : ends (runs ((start (svc 0#4) [(0#4, 0x1000#32)]).setSpsr 2 0x60000010#32) 0xE8D08002) 0x55667788#32
    0x60000010#32 [(1#4, 0x11223344#32), (0#4, 0x00001000#32)] [] = true := by decide

/-! Branches, status registers, traps. -/

/-- V20. -/
theorem test_b : ends (runs (start (svc 0#4) []) 0x1AFFFFFB) 0x00007FF4#32 (svc 0#4) [] [] = true := by decide
/-- V6. -/
theorem test_bl : ends (runs (start (svc 5#4) []) 0xEBFFFFBE) 0x00007F00#32 (svc 5#4) [(14#4, 0x00008004#32)] [] = true := by decide
/-- A branch to 0xFFFFFFFC goes there, one word further is refused (U14); below 0 the target wraps (R29). -/
theorem test_branch_top :
    runs ((start (svc 0#4) []).setPc 0xFFFFFFFC#32) 0xEAFFFFFF = .refused .pcWrap ∧
    gives (runs ((start (svc 0#4) []).setPc 0xFFFFFFFC#32) 0xEAFFFFFE) (fun t => t.pc == 0xFFFFFFFC#32) = true ∧
    gives (runs ((start (svc 0#4) []).setPc 0#32) 0xEAFFFFFB) (fun t => t.pc == 0xFFFFFFF4#32) = true :=
  ⟨rfl, by decide, by decide⟩
/-- STRH with P = 0 and W = 1 is UNPREDICTABLE (R182), and only advances where its condition fails (R122). -/
theorem test_post_writeback :
    runs (start (svc 4#4) []) 0x00E100B0 = .refused (.unpredictable .postWriteback) ∧
    gives (runs (start (svc 0#4) []) 0x00E100B0) (fun t => t.pc == 0x8004#32) = true := ⟨rfl, by decide⟩
/-- Right after an LDM of the User bank, SWI in Supervisor mode is refused and in IRQ mode taken; STM with ^ of R13 goes on (R310(c),
log 20). -/
theorem test_hazard :
    runs ((start (svc 0#4) []).setHazard true) 0xEF000000 = .refused .userBankHazard ∧
    gives (runs ((start 0x000000D2#32 []).setHazard true) 0xEF000000) (fun t => t.pc == 0x08#32) = true ∧
    gives (runs ((start (svc 0#4) [(0#4, 0x1000#32)]).setHazard true) 0xE8C02000) (fun t => t.pc == 0x8004#32) = true :=
  ⟨rfl, by decide, by decide⟩
/-- V35. -/
theorem test_bx : ends (runs (start 0x000000D3#32 [(0#4, 0x9001#32)]) 0xE12FFF10) 0x9000#32 0x000000F3#32 [] [] = true := by decide
/-- V35. -/
theorem test_bx_refused : runs (start 0x000000D3#32 [(0#4, 0x9002#32)]) 0xE12FFF10 = .refused .bxTarget := rfl
/-- V50: bits 27:8 of the value read are free. -/
theorem test_mrs : ∃ t, runs (start (svc 6#4) []) 0xE10F0000 = .next t ∧ t.reg 0#4 = psrRead 0x600000D3#32 (Config.freeWord 0) :=
  ⟨_, rfl, rfl⟩
theorem test_mrs_value (free : Word) : psrRead 0x600000D3#32 free &&& psrNamed = 0x600000D3#32 := by
  simp only [psrRead]
  rw [BitVec.and_comm, BitVec.and_or_distrib_left, BitVec.and_comm free, ← BitVec.and_assoc psrNamed (~~~psrNamed)]
  simp [psrNamed]
/-- V50. -/
theorem test_msr_reg : ends (runs (start (svc 6#4) [(0#4, 0x1F#32)]) 0xE121F000) 0x8004#32 0x6000001F#32 [] [] = true := by decide
/-- V50, User mode. -/
theorem test_msr_reg_user : ends (runs (start 0x000000D0#32 [(0#4, 0xF0000013#32)]) 0xE129F000) 0x8004#32 0xF00000D0#32 [] [] =
    true := by decide
/-- V50. -/
theorem test_msr_imm : ends (runs (start (svc 0#4) []) 0xE321F0D2) 0x8004#32 0x000000D2#32 [] [] = true := by decide
/-- V50: T may not change. -/
theorem test_msr_thumb_bit : runs (start (svc 0#4) [(0#4, 0x33#32)]) 0xE121F000 = .fault .psrThumbBit := rfl

/-- The step enters an exception: PC, CPSR, R14 of the new mode, its SPSR. -/
def enters (r : Result) (pc cpsr link : Word) (k : SpsrIdx) (saved : Word) : Bool :=
  gives r fun t => t.pc == pc && t.cpsr == cpsr && t.reg 14#4 == link && t.spsr[k] == saved

/-- V60. -/
theorem test_swi : enters (runs (start 0x60000010#32 []) 0xEF123456) 0x08#32 0x60000093#32 0x8004#32 2 0x60000010#32 = true := by
  decide
/-- V60. -/
theorem test_undefined : enters (runs (start 0x20000010#32 []) 0xE7F000F0) 0x04#32 0x2000009B#32 0x8004#32 4 0x20000010#32 = true := by
  decide
theorem test_cdp : enters (runs (start 0x10#32 []) 0xEE000000) 0x04#32 0x9B#32 0x8004#32 4 0x10#32 = true := by decide
theorem test_ldc : enters (runs (start 0x10#32 []) 0xEC100000) 0x04#32 0x9B#32 0x8004#32 4 0x10#32 = true := by decide
theorem test_stc : enters (runs (start 0x10#32 []) 0xEC000000) 0x04#32 0x9B#32 0x8004#32 4 0x10#32 = true := by decide
theorem test_mrc : enters (runs (start 0x10#32 []) 0xEE100010) 0x04#32 0x9B#32 0x8004#32 4 0x10#32 = true := by decide
theorem test_mcr : enters (runs (start 0x10#32 []) 0xEE000010) 0x04#32 0x9B#32 0x8004#32 4 0x10#32 = true := by decide

/-- A board with memory below 0x40000000 and nothing above. -/
def holes (s : State) : State := { s with platform := { allMemory with regions := [⟨0, 0x40000000, .memory⟩] } }

/-- V60, ABORT_BASE = updated. -/
theorem test_data_abort : enters (runs (holes (start 0x80000010#32 [(1#4, 0x40000000#32)])) 0xE4910004) 0x10#32 0x80000097#32
    0x8008#32 3 0x80000010#32 = true := by decide
/-- V60. -/
theorem test_prefetch_abort : enters (step (holes ((start 0x10#32 []).setPc 0x40000000#32))) 0x0C#32 0x97#32 0x40000004#32 3
    0x10#32 = true := by decide
/-- V60: FIQ before IRQ. -/
theorem test_fiq : enters (runs ((start 0x60000010#32 []).setInputs [⟨false, true, true⟩]) 0xE5910000) 0x1C#32 0x600000D1#32
    0x8004#32 0 0x60000010#32 = true := by decide
/-- V60. -/
theorem test_irq : enters (runs ((start 0x60000010#32 []).setInputs [⟨false, false, true⟩]) 0xE5910000) 0x18#32 0x60000092#32
    0x8004#32 1 0x60000010#32 = true := by decide
/-- V61: SUBS PC, R14, #4 returns from IRQ. -/
theorem test_return : ends (runs ((start 0x92#32 [(14#4, 0x9008#32)]).setSpsr 1 0x60000010#32) 0xE25EF004) 0x9004#32 0x60000010#32 [] [] =
    true := by decide
/-- A device read is answered by the oracle and recorded (R69). -/
theorem test_device_read : gives (runs { start (svc 0#4) [(1#4, 0xE0000000#32)] with
    platform := { allMemory with regions := [⟨0, 0x40000000, .memory⟩, ⟨0xE0000000, 0x1000, .device⟩] } } 0xE5910000)
    (fun t => t.io == [.read 0xE0000000#32 .word]) = true := by decide

/-! Witnesses: for every obligation with hypotheses, states and operands that meet them together, at the edges of their ranges. -/

/-- The last address an instruction can be followed from. -/
def edge (cpsr : Word) (l : List (RegNum × Word)) : State := (start cpsr l).setPc 0xFFFFFFF8#32

theorem meets {i : Instr} {s : State} (h : (condPassed i.cond s.cpsr && i.wellFormed) = true) : Runs i s := by
  simpa [Runs] using h

theorem allExist {s : State} {l : List Word} (h : (l.all fun a => s.accessExists a .word) = true) : AllExist s l := by
  simpa [AllExist] using h

theorem notAllExist {s : State} {l : List Word} (h : (l.all fun a => s.accessExists a .word) = false) : ¬ AllExist s l := by
  simpa [AllExist] using h

/-- What `gives` says of a step. -/
theorem gives_next {r : Result} {p : State → Bool} (h : gives r p = true) : ∃ t, r = .next t ∧ p t = true := by
  cases r with
  | next t => exact ⟨t, rfl, h⟩
  | fault _ => cases h
  | refused _ => cases h

theorem witness_EncodingInvertsDecoding : decodeWord 0xEFFFFFFF#32 = .ok (.swi .al 0xFFFFFF#24) := by decide

theorem witness_AbsentInstructionsRefused :
    (field 0xE1C100D0#32 28 4 ≠ 0b1111#4 ∧ field 0xE1C100D0#32 25 3 = 0#3 ∧ bitAt 0xE1C100D0#32 20 = false ∧
      bitAt 0xE1C100D0#32 7 = true ∧ bitAt 0xE1C100D0#32 6 = true ∧ bitAt 0xE1C100D0#32 4 = true) ∧
    (field 0x012FFF3F#32 28 4 ≠ 0b1111#4 ∧ field 0x012FFF3F#32 4 24 = 0x12FFF3#24) := by decide

theorem witness_FailedConditionOnlyAdvances :
    condPassed (Instr.cond (.bl .eq 0#24)) (edge (svc 0#4) []).cpsr = false ∧ (edge (svc 0#4) []).pc < 0xFFFFFFFC#32 := by decide

theorem witness_UnpredictableOperandsRefused :
    condPassed (Instr.cond (.mul .eq true 1#4 2#4 1#4)) (start (svc 4#4) []).cpsr = true ∧
    (.mul .eq true 1#4 2#4 1#4 : Instr).restriction = some .multiplyOverlap ∧
    condPassed .eq (start (svc 4#4) []).cpsr = true := by decide

theorem witness_LogicalInstructions :
    DataOpcode.logical .mvn = true ∧ Runs (DataOpcode.row .mvn .al true 0#4 14#4 (.shReg 1#4 .ror 2#4)) (edge (svc 0#4) []) ∧
    (14#4 : RegNum) ≠ pcNum ∧ (edge (svc 0#4) []).pc < 0xFFFFFFFC#32 :=
  ⟨rfl, meets (by decide), by decide, by decide⟩

theorem witness_ArithmeticInstructions :
    DataOpcode.logical .rsc = false ∧ Runs (DataOpcode.row .rsc .vs true 15#4 0#4 (.shImm 0#5 .ror 15#4)) (edge (svc 1#4) []) ∧
    (0#4 : RegNum) ≠ pcNum ∧ (edge (svc 1#4) []).pc < 0xFFFFFFFC#32 :=
  ⟨rfl, meets (by decide), by decide, by decide⟩

theorem witness_TestInstructions :
    Runs (TestOpcode.row .cmn .al 15#4 (.imm 15#4 0xFF#8)) (edge 0x00000010#32 []) ∧ (edge 0x00000010#32 []).pc < 0xFFFFFFFC#32 :=
  ⟨meets (by decide), by decide⟩

theorem witness_DataInstructionJumps : Runs (DataOpcode.row .mov .al false 0#4 pcNum (.shImm 0#5 .lsl 14#4)) (start 0x10#32 []) :=
  meets (by decide)

/-- A Supervisor-mode state whose SPSR names User mode in THUMB state; one whose SPSR names no mode; a System-mode state. -/
theorem witness_DataInstructionReturns :
    Runs (DataOpcode.row .sub .al true 14#4 pcNum (.imm 0#4 4#8)) ((start (svc 0#4) []).setSpsr 2 0x30#32) ∧
    (((start (svc 0#4) []).setSpsr 2 0x30#32).mode.spsrIdx = some 2 ∧
      legalMode (psrM ((start (svc 0#4) []).setSpsr 2 0x30#32).spsr[2]) = true) ∧
    ((start (svc 0#4) []).mode.spsrIdx = some 2 ∧ legalMode (psrM (start (svc 0#4) []).spsr[2]) = false) ∧
    (Runs (DataOpcode.row .sub .al true 14#4 pcNum (.imm 0#4 4#8)) (start 0x1F#32 []) ∧ (start 0x1F#32 []).mode.spsrIdx = none) :=
  ⟨meets (by decide), by decide, by decide, meets (by decide), by decide⟩

theorem witness_ShiftByConstant : (0#5 : BitVec 5) = 0#5 ∧ (1#5 : BitVec 5) ≠ 0#5 ∧ (31#5 : BitVec 5) ≠ 0#5 := by decide

/-- Amounts 0, 1, 31, 32, 33 and 255 in a register whose upper bytes are not zero. -/
theorem witness_ShiftByRegister :
    0 = ((start (svc 0#4) [(2#4, 0xFFFFFF00#32)]).reg 2#4).toNat % 256 ∧ 1 = ((start (svc 0#4) [(2#4, 0x101#32)]).reg 2#4).toNat % 256 ∧
    31 = ((start (svc 0#4) [(2#4, 0x11F#32)]).reg 2#4).toNat % 256 ∧ 32 = ((start (svc 0#4) [(2#4, 0x120#32)]).reg 2#4).toNat % 256 ∧
    33 = ((start (svc 0#4) [(2#4, 0x121#32)]).reg 2#4).toNat % 256 ∧ 255 = ((start (svc 0#4) [(2#4, 0x1FF#32)]).reg 2#4).toNat % 256 := by
  decide

theorem witness_MultiplyResults :
    (edge (svc 0#4) []).pc < 0xFFFFFFFC#32 ∧ Runs (.mul .al true 0#4 1#4 1#4) (edge (svc 0#4) []) ∧
    Runs (.mla .al true 14#4 14#4 14#4 0#4) (edge (svc 0#4) []) :=
  ⟨by decide, meets (by decide), meets (by decide)⟩

theorem witness_LongMultiplyResults :
    (edge (svc 0#4) []).pc < 0xFFFFFFFC#32 ∧ Runs (.umull .al true 1#4 0#4 1#4 2#4) (edge (svc 0#4) []) ∧
    Runs (.umlal .al true 1#4 0#4 0#4 2#4) (edge (svc 0#4) []) ∧ Runs (.smull .al true 14#4 0#4 2#4 2#4) (edge (svc 0#4) []) ∧
    Runs (.smlal .al false 1#4 14#4 3#4 2#4) (edge (svc 0#4) []) :=
  ⟨by decide, meets (by decide), meets (by decide), meets (by decide), meets (by decide)⟩

theorem witness_TransferAddresses : HsIndex.postIndexed ≠ .postIndexedW := by decide

/-- A misaligned word at the top of memory, R15 as Rd, post-indexed with an offset that wraps. -/
theorem witness_LoadWordInstructions :
    Runs (ldrRow .al .postIndexed true 1#4 15#4 (.imm 0xFFF#12)) (edge (svc 0#4) [(1#4, 0xFFFFFFFF#32)]) ∧
    (edge (svc 0#4) [(1#4, 0xFFFFFFFF#32)]).accessExists
      ((lsAddressing false true true 1#4 (.imm 0xFFF#12) (edge (svc 0#4) [(1#4, 0xFFFFFFFF#32)])).addr &&& 0xFFFFFFFC#32) .word = true ∧
    Follows (edge (svc 0#4) [(1#4, 0xFFFFFFFF#32)]) (15#4 == pcNum) :=
  ⟨meets (by decide), by decide, Or.inl (by decide)⟩

theorem witness_LoadByteInstructions :
    Runs (ldrbRow .al .user false 1#4 0#4 (.reg 0#5 .ror 2#4)) (edge (svc 0#4) [(1#4, 0xFFFFFFFF#32)]) ∧
    (edge (svc 0#4) [(1#4, 0xFFFFFFFF#32)]).accessExists
      (lsAddressing false false true 1#4 (.reg 0#5 .ror 2#4) (edge (svc 0#4) [(1#4, 0xFFFFFFFF#32)])).addr .byte = true ∧
    (edge (svc 0#4) [(1#4, 0xFFFFFFFF#32)]).pc < 0xFFFFFFFC#32 :=
  ⟨meets (by decide), by decide, by decide⟩

theorem witness_LoadHalfAndSignedInstructions :
    (edge (svc 0#4) [(1#4, 0xFFFFFFFF#32)]).pc < 0xFFFFFFFC#32 ∧
    (Runs (ldrhRow .al .preIndexed false 1#4 0#4 (.imm 0#4 1#4)) (edge (svc 0#4) [(1#4, 0xFFFFFFFF#32)]) ∧
      Runs (ldrshRow .al .preIndexed false 1#4 0#4 (.imm 0#4 1#4)) (edge (svc 0#4) [(1#4, 0xFFFFFFFF#32)]) ∧
      (edge (svc 0#4) [(1#4, 0xFFFFFFFF#32)]).accessExists
        (hsAddressing .preIndexed false 1#4 (.imm 0#4 1#4) (edge (svc 0#4) [(1#4, 0xFFFFFFFF#32)])).addr .half = true ∧
      bitAt (hsAddressing .preIndexed false 1#4 (.imm 0#4 1#4) (edge (svc 0#4) [(1#4, 0xFFFFFFFF#32)])).addr 0 = false) ∧
    (Runs (ldrsbRow .al .offset true 1#4 0#4 (.reg 2#4)) (edge (svc 0#4) [(1#4, 0xFFFFFFFF#32)]) ∧
      (edge (svc 0#4) [(1#4, 0xFFFFFFFF#32)]).accessExists
        (hsAddressing .offset true 1#4 (.reg 2#4) (edge (svc 0#4) [(1#4, 0xFFFFFFFF#32)])).addr .byte = true) :=
  ⟨by decide, ⟨meets (by decide), meets (by decide), by decide, by decide⟩, meets (by decide), by decide⟩

theorem witness_StoreWordInstructions :
    Runs (strRow .al .offset true 15#4 15#4 (.imm 7#12)) (edge (svc 0#4) []) ∧
    (edge (svc 0#4) []).accessExists ((lsAddressing true true false 15#4 (.imm 7#12) (edge (svc 0#4) [])).addr &&& 0xFFFFFFFC#32) .word =
      true ∧
    (edge (svc 0#4) []).pc < 0xFFFFFFFC#32 :=
  ⟨meets (by decide), by decide, by decide⟩

theorem witness_StoreNarrowInstructions :
    (Runs (strbRow .al .user true 1#4 0#4 (.imm 1#12)) (edge (svc 0#4) [(1#4, 0xFFFFFFFF#32)]) ∧
      (edge (svc 0#4) [(1#4, 0xFFFFFFFF#32)]).accessExists
        (lsAddressing false true true 1#4 (.imm 1#12) (edge (svc 0#4) [(1#4, 0xFFFFFFFF#32)])).addr .byte = true ∧
      (edge (svc 0#4) [(1#4, 0xFFFFFFFF#32)]).pc < 0xFFFFFFFC#32) ∧
    (Runs (strhRow .al .postIndexed true 1#4 0#4 (.imm 15#4 15#4)) (edge (svc 0#4) [(1#4, 0xFFFFFFFE#32)]) ∧
      (edge (svc 0#4) [(1#4, 0xFFFFFFFE#32)]).accessExists
        (hsAddressing .postIndexed true 1#4 (.imm 15#4 15#4) (edge (svc 0#4) [(1#4, 0xFFFFFFFE#32)])).addr .half = true ∧
      bitAt (hsAddressing .postIndexed true 1#4 (.imm 15#4 15#4) (edge (svc 0#4) [(1#4, 0xFFFFFFFE#32)])).addr 0 = false ∧
      (edge (svc 0#4) [(1#4, 0xFFFFFFFE#32)]).pc < 0xFFFFFFFC#32) :=
  ⟨⟨meets (by decide), by decide, by decide⟩, meets (by decide), by decide, by decide, by decide⟩

theorem witness_OddHalfwordRefused :
    Runs (ldrhRow .al .offset true 1#4 0#4 (.imm 0#4 1#4)) (start (svc 0#4) []) ∧
    Runs (ldrshRow .al .offset true 1#4 0#4 (.imm 0#4 1#4)) (start (svc 0#4) []) ∧
    Runs (strhRow .al .offset true 1#4 0#4 (.imm 0#4 1#4)) (start (svc 0#4) []) ∧
    bitAt (hsAddressing .offset true 1#4 (.imm 0#4 1#4) (start (svc 0#4) [])).addr 0 = true :=
  ⟨meets (by decide), meets (by decide), meets (by decide), by decide⟩

/-- The board ends at 0x3FFFFFFF; the first address above it does not exist. -/
theorem witness_TransfersAbort :
    (Runs (ldrRow .al .preIndexed true 1#4 0#4 (.imm 1#12)) (holes (start 0x10#32 [(1#4, 0x3FFFFFFF#32)])) ∧
      Runs (strRow .al .preIndexed true 1#4 0#4 (.imm 1#12)) (holes (start 0x10#32 [(1#4, 0x3FFFFFFF#32)])) ∧
      (holes (start 0x10#32 [(1#4, 0x3FFFFFFF#32)])).accessExists
        ((lsAddressing true true true 1#4 (.imm 1#12) (holes (start 0x10#32 [(1#4, 0x3FFFFFFF#32)]))).addr &&& 0xFFFFFFFC#32) .word =
          false) ∧
    (Runs (ldrbRow .al .user true 1#4 0#4 (.imm 1#12)) (holes (start 0x10#32 [(1#4, 0x40000000#32)])) ∧
      Runs (strbRow .al .user true 1#4 0#4 (.imm 1#12)) (holes (start 0x10#32 [(1#4, 0x40000000#32)])) ∧
      (holes (start 0x10#32 [(1#4, 0x40000000#32)])).accessExists
        (lsAddressing false true true 1#4 (.imm 1#12) (holes (start 0x10#32 [(1#4, 0x40000000#32)]))).addr .byte = false) ∧
    (Runs (ldrhRow .al .offset true 1#4 0#4 (.reg 2#4)) (holes (start 0x10#32 [(1#4, 0x40000000#32)])) ∧
      Runs (ldrshRow .al .offset true 1#4 0#4 (.reg 2#4)) (holes (start 0x10#32 [(1#4, 0x40000000#32)])) ∧
      Runs (strhRow .al .offset true 1#4 0#4 (.reg 2#4)) (holes (start 0x10#32 [(1#4, 0x40000000#32)])) ∧
      Runs (ldrsbRow .al .offset true 1#4 0#4 (.reg 2#4)) (holes (start 0x10#32 [(1#4, 0x40000000#32)])) ∧
      bitAt (hsAddressing .offset true 1#4 (.reg 2#4) (holes (start 0x10#32 [(1#4, 0x40000000#32)]))).addr 0 = false ∧
      (holes (start 0x10#32 [(1#4, 0x40000000#32)])).accessExists
        (hsAddressing .offset true 1#4 (.reg 2#4) (holes (start 0x10#32 [(1#4, 0x40000000#32)]))).addr .half = false ∧
      (holes (start 0x10#32 [(1#4, 0x40000000#32)])).accessExists
        (hsAddressing .offset true 1#4 (.reg 2#4) (holes (start 0x10#32 [(1#4, 0x40000000#32)]))).addr .byte = false) ∧
    (Runs (.swp .al 1#4 0#4 2#4) (holes (start 0x10#32 [(1#4, 0x40000003#32)])) ∧
      (holes (start 0x10#32 [(1#4, 0x40000003#32)])).accessExists
        ((holes (start 0x10#32 [(1#4, 0x40000003#32)])).reg 1#4 &&& 0xFFFFFFFC#32) .word = false) ∧
    (Runs (.swpb .al 1#4 0#4 2#4) (holes (start 0x10#32 [(1#4, 0x40000000#32)])) ∧
      (holes (start 0x10#32 [(1#4, 0x40000000#32)])).accessExists ((holes (start 0x10#32 [(1#4, 0x40000000#32)])).reg 1#4) .byte =
        false) :=
  ⟨⟨meets (by decide), meets (by decide), by decide⟩, ⟨meets (by decide), meets (by decide), by decide⟩,
    ⟨meets (by decide), meets (by decide), meets (by decide), meets (by decide), by decide, by decide, by decide⟩,
    ⟨meets (by decide), by decide⟩, meets (by decide), by decide⟩

theorem witness_SwapInstructions :
    (edge (svc 0#4) [(1#4, 0xFFFFFFFF#32)]).pc < 0xFFFFFFFC#32 ∧
    (Runs (.swp .al 1#4 0#4 0#4) (edge (svc 0#4) [(1#4, 0xFFFFFFFF#32)]) ∧
      (edge (svc 0#4) [(1#4, 0xFFFFFFFF#32)]).accessExists
        ((edge (svc 0#4) [(1#4, 0xFFFFFFFF#32)]).reg 1#4 &&& 0xFFFFFFFC#32) .word = true) ∧
    (Runs (.swpb .al 1#4 0#4 0#4) (edge (svc 0#4) [(1#4, 0xFFFFFFFF#32)]) ∧
      (edge (svc 0#4) [(1#4, 0xFFFFFFFF#32)]).accessExists ((edge (svc 0#4) [(1#4, 0xFFFFFFFF#32)]).reg 1#4) .byte = true) :=
  ⟨by decide, ⟨meets (by decide), by decide⟩, meets (by decide), by decide⟩

/-- The last target that is reached and the first that is refused, and a target below address 0. -/
theorem witness_Branches :
    (Runs (.b .al 0xFFFFFE#24) ((start (svc 0#4) []).setPc 0xFFFFFFFC#32) ∧
      Runs (.bl .al 0xFFFFFE#24) ((start (svc 0#4) []).setPc 0xFFFFFFFC#32) ∧
      (((start (svc 0#4) []).setPc 0xFFFFFFFC#32).pc.toNat : Int) + 8 + 4 * (0xFFFFFE#24).toInt < 2 ^ 32) ∧
    (Runs (.b .al 0xFFFFFF#24) ((start (svc 0#4) []).setPc 0xFFFFFFFC#32) ∧
      Runs (.bl .al 0xFFFFFF#24) ((start (svc 0#4) []).setPc 0xFFFFFFFC#32) ∧
      2 ^ 32 ≤ (((start (svc 0#4) []).setPc 0xFFFFFFFC#32).pc.toNat : Int) + 8 + 4 * (0xFFFFFF#24).toInt) ∧
    (Runs (.b .al 0x800000#24) ((start (svc 0#4) []).setPc 0#32) ∧
      (((start (svc 0#4) []).setPc 0#32).pc.toNat : Int) + 8 + 4 * (0x800000#24).toInt < 0) :=
  ⟨⟨meets (by decide), meets (by decide), by decide⟩, ⟨meets (by decide), meets (by decide), by decide⟩, meets (by decide), by decide⟩

theorem witness_BranchExchange :
    Runs (.bx .al 15#4) (start (svc 0#4) []) ∧ field ((start (svc 0#4) []).reg 15#4) 0 2 ≠ 0b10#2 ∧
    Runs (.bx .al 0#4) (start (svc 0#4) [(0#4, 0x9003#32)]) ∧ field ((start (svc 0#4) [(0#4, 0x9003#32)]).reg 0#4) 0 2 ≠ 0b10#2 ∧
    Runs (.bx .al 0#4) (start (svc 0#4) [(0#4, 0x9002#32)]) ∧ field ((start (svc 0#4) [(0#4, 0x9002#32)]).reg 0#4) 0 2 = 0b10#2 :=
  ⟨meets (by decide), by decide, meets (by decide), by decide, meets (by decide), by decide⟩

theorem witness_ReadStatusRegister :
    (Runs (.mrs .al true 0#4) (edge (svc 0#4) []) ∧ (edge (svc 0#4) []).currentSpsr = some 0#32 ∧
      (edge (svc 0#4) []).pc < 0xFFFFFFFC#32) ∧
    (Runs (.mrs .al false 0#4) (edge 0x10#32 []) ∧ (edge 0x10#32 []).pc < 0xFFFFFFFC#32) ∧
    (Runs (.mrs .al true 0#4) (start 0x10#32 []) ∧ (start 0x10#32 []).mode = .usr) ∧ (start 0x1F#32 []).mode = .sys :=
  ⟨⟨meets (by decide), by decide, by decide⟩, ⟨meets (by decide), by decide⟩, ⟨meets (by decide), by decide⟩, by decide⟩

theorem witness_WriteCpsrPrivileged :
    MsrRow .al false 0b1001#4 0xD2#32 (edge (svc 0#4) []) (.msrImm .al false 0b1001#4 0#4 0xD2#8) ∧
    Runs (.msrImm .al false 0b1001#4 0#4 0xD2#8) (edge (svc 0#4) []) ∧ (edge (svc 0#4) []).mode ≠ .usr ∧
    (psrT (edge (svc 0#4) []).cpsr = bitAt 0xD2#32 5 ∧ legalMode (field 0xD2#32 0 5) = true) ∧ (edge (svc 0#4) []).pc < 0xFFFFFFFC#32 :=
  ⟨Or.inr ⟨_, _, rfl, by decide⟩, meets (by decide), by decide, by decide, by decide⟩

theorem witness_WriteCpsrUser :
    MsrRow .al false 0b1111#4 0xF00000FF#32 (edge 0x10#32 [(1#4, 0xF00000FF#32)]) (.msrReg .al false 0b1111#4 1#4) ∧
    Runs (.msrReg .al false 0b1111#4 1#4) (edge 0x10#32 [(1#4, 0xF00000FF#32)]) ∧
    (edge 0x10#32 [(1#4, 0xF00000FF#32)]).mode = .usr ∧ (edge 0x10#32 [(1#4, 0xF00000FF#32)]).pc < 0xFFFFFFFC#32 :=
  ⟨Or.inl ⟨_, rfl, by decide⟩, meets (by decide), by decide, by decide⟩

theorem witness_WriteSpsr :
    (MsrRow .al true 0b1111#4 0xFFFFFFFF#32 (edge 0x92#32 [(1#4, 0xFFFFFFFF#32)]) (.msrReg .al true 0b1111#4 1#4) ∧
      Runs (.msrReg .al true 0b1111#4 1#4) (edge 0x92#32 [(1#4, 0xFFFFFFFF#32)]) ∧
      (edge 0x92#32 [(1#4, 0xFFFFFFFF#32)]).mode.spsrIdx = some 1 ∧ (edge 0x92#32 [(1#4, 0xFFFFFFFF#32)]).pc < 0xFFFFFFFC#32) ∧
    (MsrRow .al true 0b0001#4 0x10#32 (start 0x1F#32 []) (.msrImm .al true 0b0001#4 0#4 0x10#8) ∧
      Runs (.msrImm .al true 0b0001#4 0#4 0x10#8) (start 0x1F#32 []) ∧ (start 0x1F#32 []).mode = .sys) :=
  ⟨⟨Or.inl ⟨_, rfl, by decide⟩, meets (by decide), by decide, by decide⟩, Or.inr ⟨_, _, rfl, by decide⟩, meets (by decide), by decide⟩

theorem witness_WriteCpsrFaults :
    (MsrRow .al false 0b0001#4 0x33#32 (start (svc 0#4) []) (.msrImm .al false 0b0001#4 0#4 0x33#8) ∧
      Runs (.msrImm .al false 0b0001#4 0#4 0x33#8) (start (svc 0#4) []) ∧ psrT (start (svc 0#4) []).cpsr ≠ bitAt 0x33#32 5) ∧
    (MsrRow .al false 0b0001#4 0x0F#32 (start (svc 0#4) []) (.msrImm .al false 0b0001#4 0#4 0x0F#8) ∧
      Runs (.msrImm .al false 0b0001#4 0#4 0x0F#8) (start (svc 0#4) []) ∧ psrT (start (svc 0#4) []).cpsr = bitAt 0x0F#32 5 ∧
      legalMode (field 0x0F#32 0 5) = false) ∧
    (start (svc 0#4) []).mode ≠ .usr ∧ (0b0001#4).getLsbD 0 = true :=
  ⟨⟨Or.inr ⟨_, _, rfl, by decide⟩, meets (by decide), by decide⟩,
    ⟨Or.inr ⟨_, _, rfl, by decide⟩, meets (by decide), by decide, by decide⟩, by decide, by decide⟩

theorem witness_SoftwareInterrupt : Runs (.swi .al 0xFFFFFF#24) ((start 0x10#32 []).setPc 0xFFFFFFFC#32) := meets (by decide)

theorem witness_UndefinedInstructions :
    Runs (.undefined .al 0xFFFFF#20 15#4) (start 0x10#32 []) ∧ Runs (.ldc .al true true true true 15#4 15#4 15#4 0xFF#8) (start 0x10#32 []) ∧
    Runs (.stc .al false false false false 0#4 0#4 0#4 0#8) (start 0x10#32 []) ∧
    Runs (.cdp .al 15#4 15#4 15#4 15#4 7#3 15#4) (start 0x10#32 []) ∧ Runs (.mcr .al 7#3 15#4 15#4 15#4 7#3 15#4) (start 0x10#32 []) ∧
    Runs (.mrc .al 7#3 15#4 15#4 15#4 7#3 15#4) (start 0x10#32 []) :=
  ⟨meets (by decide), meets (by decide), meets (by decide), meets (by decide), meets (by decide), meets (by decide)⟩

theorem witness_BlockAddresses : 16 = (regList 0xFFFF#16).length ∧ 15 < 16 ∧ 0 = (regList 0#16).length := by decide

theorem witness_LoadMultiple :
    (Runs (.ldm .al true false false true 13#4 0xDFFF#16) (edge (svc 0#4) []) ∧
      AllExist (edge (svc 0#4) []) (blockTargets true false true 13#4 0xDFFF#16 (edge (svc 0#4) [])) ∧
      Follows (edge (svc 0#4) []) ((0xDFFF#16).getLsbD 15)) ∧
    (Runs (.ldm .al false true false false 13#4 0x2000#16) (edge (svc 0#4) []) ∧
      AllExist (edge (svc 0#4) []) (blockTargets false true false 13#4 0x2000#16 (edge (svc 0#4) [])) ∧
      Follows (edge (svc 0#4) []) ((0x2000#16).getLsbD 15)) :=
  ⟨⟨meets (by decide), allExist rfl, Or.inl (by decide)⟩, meets (by decide), allExist rfl, Or.inr (by decide)⟩

theorem witness_LoadMultipleUserBank :
    (Runs (.ldm .al false true true false 0#4 0x7FFF#16) (edge 0xD1#32 []) ∧ (0x7FFF#16).getLsbD 15 = false ∧
      (edge 0xD1#32 []).mode ≠ .usr ∧ (edge 0xD1#32 []).mode ≠ .sys ∧
      AllExist (edge 0xD1#32 []) (blockTargets false true false 0#4 0x7FFF#16 (edge 0xD1#32 [])) ∧ (edge 0xD1#32 []).pc < 0xFFFFFFFC#32) ∧
    ((start 0x10#32 []).mode = .usr ∧ Runs (.ldm .al false true true false 0#4 0x7FFF#16) (start 0x10#32 []) ∧
      Runs (.ldm .al false true true true 0#4 0x8000#16) (start 0x10#32 []) ∧ (0x8000#16).getLsbD 15 = true ∧
      Runs (.stm .al false true true false 0#4 0x8000#16) (start 0x10#32 [])) :=
  ⟨⟨meets (by decide), by decide, by decide, by decide, allExist rfl, by decide⟩, by decide, meets (by decide),
    meets (by decide), by decide, meets (by decide)⟩

theorem witness_LoadMultipleReturns :
    (Runs (.ldm .al false true true true 13#4 0x8001#16) ((start 0x92#32 []).setSpsr 1 0x30#32) ∧ (0x8001#16).getLsbD 15 = true ∧
      ((start 0x92#32 []).setSpsr 1 0x30#32).mode.spsrIdx = some 1 ∧
      AllExist ((start 0x92#32 []).setSpsr 1 0x30#32) (blockTargets false true true 13#4 0x8001#16 ((start 0x92#32 []).setSpsr 1 0x30#32)) ∧
      legalMode (psrM ((start 0x92#32 []).setSpsr 1 0x30#32).spsr[1]) = true) ∧
    (Runs (.ldm .al false true true true 13#4 0x8001#16) (start 0x92#32 []) ∧ (start 0x92#32 []).mode.spsrIdx = some 1 ∧
      AllExist (start 0x92#32 []) (blockTargets false true true 13#4 0x8001#16 (start 0x92#32 [])) ∧
      legalMode (psrM (start 0x92#32 []).spsr[1]) = false) :=
  ⟨⟨meets (by decide), by decide, by decide, allExist rfl, by decide⟩, meets (by decide), by decide,
    allExist rfl, by decide⟩

/-- The last of the addresses is the first that does not exist. -/
theorem witness_LoadMultipleAborts :
    (Runs (.ldm .al false true false true 0#4 0x8006#16) (holes (start 0x10#32 [(0#4, 0x3FFFFFF8#32)])) ∧
      ¬ AllExist (holes (start 0x10#32 [(0#4, 0x3FFFFFF8#32)]))
        (blockTargets false true true 0#4 0x8006#16 (holes (start 0x10#32 [(0#4, 0x3FFFFFF8#32)])))) ∧
    (Runs (.ldm .al false true true false 0#4 0x0006#16) (holes (start 0xD1#32 [(0#4, 0x3FFFFFFC#32)])) ∧
      ((holes (start 0xD1#32 [(0#4, 0x3FFFFFFC#32)])).mode ≠ .usr ∧ (holes (start 0xD1#32 [(0#4, 0x3FFFFFFC#32)])).mode ≠ .sys) ∧
      ¬ AllExist (holes (start 0xD1#32 [(0#4, 0x3FFFFFFC#32)]))
        (blockTargets false true false 0#4 0x0006#16 (holes (start 0xD1#32 [(0#4, 0x3FFFFFFC#32)])))) :=
  ⟨⟨meets (by decide), notAllExist rfl⟩, meets (by decide), by decide, notAllExist rfl⟩

theorem witness_StoreMultiple :
    (Runs (.stm .al true true false true 0#4 0xFFFF#16) (edge (svc 0#4) [(0#4, 0xFFFFFFFF#32)]) ∧
      AllExist (edge (svc 0#4) [(0#4, 0xFFFFFFFF#32)]) (blockTargets true true true 0#4 0xFFFF#16 (edge (svc 0#4) [(0#4, 0xFFFFFFFF#32)])) ∧
      (edge (svc 0#4) [(0#4, 0xFFFFFFFF#32)]).pc < 0xFFFFFFFC#32) ∧
    (Runs (.stm .al false false true false 14#4 0x8001#16) (edge 0xD1#32 []) ∧
      ((edge 0xD1#32 []).mode ≠ .usr ∧ (edge 0xD1#32 []).mode ≠ .sys) ∧
      AllExist (edge 0xD1#32 []) (blockTargets false false false 14#4 0x8001#16 (edge 0xD1#32 [])) ∧
      (edge 0xD1#32 []).pc < 0xFFFFFFFC#32) :=
  ⟨⟨meets (by decide), allExist rfl, by decide⟩, meets (by decide), by decide, allExist rfl, by decide⟩

theorem witness_StoreMultipleAborts :
    (Runs (.stm .al false true false true 0#4 0x8006#16) (holes (start 0x10#32 [(0#4, 0x3FFFFFF8#32)])) ∧
      ¬ AllExist (holes (start 0x10#32 [(0#4, 0x3FFFFFF8#32)]))
        (blockTargets false true true 0#4 0x8006#16 (holes (start 0x10#32 [(0#4, 0x3FFFFFF8#32)])))) ∧
    (Runs (.stm .al false true true false 0#4 0x0006#16) (holes (start 0xD1#32 [(0#4, 0x3FFFFFFC#32)])) ∧
      ((holes (start 0xD1#32 [(0#4, 0x3FFFFFFC#32)])).mode ≠ .usr ∧ (holes (start 0xD1#32 [(0#4, 0x3FFFFFFC#32)])).mode ≠ .sys) ∧
      ¬ AllExist (holes (start 0xD1#32 [(0#4, 0x3FFFFFFC#32)]))
        (blockTargets false true false 0#4 0x0006#16 (holes (start 0xD1#32 [(0#4, 0x3FFFFFFC#32)])))) :=
  ⟨⟨meets (by decide), notAllExist rfl⟩, meets (by decide), by decide, notAllExist rfl⟩

theorem witness_TakingAnException : Exc.irq ≠ Exc.reset ∧ Exc.undefined ≠ Exc.reset := by decide

/-- ARM state at the top of memory and THUMB state. -/
theorem witness_ReturnsResume :
    (legalMode (psrM ((start 0x10#32 []).setPc 0xFFFFFFFC#32).cpsr) = true ∧ field ((start 0x10#32 []).setPc 0xFFFFFFFC#32).pc 0 2 = 0#2) ∧
    (legalMode (psrM ((start 0x30#32 []).setPc 0xFFFFFFFE#32).cpsr) = true ∧ bitAt ((start 0x30#32 []).setPc 0xFFFFFFFE#32).pc 0 = false) := by
  decide

/-- A state before its first fetch, with an instruction placed. -/
def placed (w : Nat) : State := (start (svc 0#4) []).withFetchWord 32 w

/-- A word fetched ahead is run whatever stands at PC. -/
theorem witness_StepRunsDecodedInstruction :
    (pendingException (placed 0xE0910002) = none ∧ (placed 0xE0910002).thumb = false ∧ (placed 0xE0910002).nextWord 0xE0910002#32 ∧
      decodeWord 0xE0910002#32 = .ok (.addShImm .al true 1#4 0#4 0#5 .lsl 2#4) ∧
      breaksHazard (.addShImm .al true 1#4 0#4 0#5 .lsl 2#4) (placed 0xE0910002) = false) ∧
    ((start (svc 0#4) []).setPipe (some ⟨.word 0xE0910002#32, .aborted⟩)).nextWord 0xE0910002#32 := by
  refine ⟨⟨by decide, by decide, ⟨fun p h => ?_, fun _ => by decide⟩, by decide, by decide⟩, fun p h => ?_, fun h => ?_⟩
  · cases h
  · cases h; rfl
  · cases h

theorem witness_PlacedInstructionRuns :
    pendingException ((start (svc 0#4) []).setPc 0xFFFFFFFC#32) = none ∧ ((start (svc 0#4) []).setPc 0xFFFFFFFC#32).thumb = false ∧
    ((start (svc 0#4) []).setPc 0xFFFFFFFC#32).bankHazard = false ∧
    ((start (svc 0#4) []).setPc 0xFFFFFFFC#32).accessExists 0xFFFFFFFC#32 .word = true ∧
    ((start (svc 0#4) []).setPc 0xFFFFFFFC#32).accessDevice 0xFFFFFFFC#32 .word = false := by decide

theorem witness_FetchWindow :
    ((start (svc 0#4) []).setPipe (some ⟨.aborted, .word 0#32⟩)).pipe = some ⟨.aborted, .word 0#32⟩ ∧ (start (svc 0#4) []).pipe = none ∧
    (∀ k : Fin 3, (start (svc 0#4) []).accessExists ((start (svc 0#4) []).pc + BitVec.ofNat 32 (4 * k)) .word = true ∧
      (start (svc 0#4) []).accessDevice ((start (svc 0#4) []).pc + BitVec.ofNat 32 (4 * k)) .word = false) := by decide

theorem witness_StepsFollowOrRefill : ∃ t, step (placed 0xE0910002) = .next t ∧ (t.pc == 0x8004#32 && t.pipe.isSome) = true :=
  gives_next (by decide)

theorem witness_PrefetchAborts :
    (pendingException ((start 0x10#32 []).setPipe (some ⟨.aborted, .word 0#32⟩)) = none ∧
      ((start 0x10#32 []).setPipe (some ⟨.aborted, .word 0#32⟩)).thumb = false ∧
      ((start 0x10#32 []).setPipe (some ⟨.aborted, .word 0#32⟩)).pipe = some ⟨.aborted, .word 0#32⟩) ∧
    (pendingException (holes ((start 0x10#32 []).setPc 0x40000000#32)) = none ∧
      (holes ((start 0x10#32 []).setPc 0x40000000#32)).pipe = none ∧
      (holes ((start 0x10#32 []).setPc 0x40000000#32)).accessExists 0x40000000#32 .word = false) := by decide

/-- All three asserted; FIQ and IRQ asserted with F = 0; with F = 1 and I = 0; both masked. -/
theorem witness_BoundaryPriority :
    ((start 0x10#32 []).setInputs [⟨true, true, true⟩]).input.reset = true ∧
    (((start 0x10#32 []).setInputs [⟨false, true, true⟩]).input.reset = false ∧
      ((start 0x10#32 []).setInputs [⟨false, true, true⟩]).input.fiq = true ∧
      psrF ((start 0x10#32 []).setInputs [⟨false, true, true⟩]).cpsr = false) ∧
    (((start 0x50#32 []).setInputs [⟨false, true, true⟩]).input.irq = true ∧
      psrF ((start 0x50#32 []).setInputs [⟨false, true, true⟩]).cpsr = true ∧
      psrI ((start 0x50#32 []).setInputs [⟨false, true, true⟩]).cpsr = false) ∧
    (psrF ((start 0xD0#32 []).setInputs [⟨false, true, true⟩]).cpsr = true ∧
      psrI ((start 0xD0#32 []).setInputs [⟨false, true, true⟩]).cpsr = true) := by decide

/-- A state right after an LDM of the User bank, in FIQ mode, the next instruction reading R8; in Supervisor mode, a SWI there. -/
theorem witness_NamedRefusals :
    (condPassed (Instr.cond (.swi .ne 0#24)) ((start (svc 4#4) []).setPc 0xFFFFFFFC#32).cpsr = false ∧
      0xFFFFFFFC#32 ≤ ((start (svc 4#4) []).setPc 0xFFFFFFFC#32).pc) ∧
    (Runs (DataOpcode.row .add .al true 0#4 14#4 (.imm 0#4 1#8)) ((start (svc 0#4) []).setPc 0xFFFFFFFC#32) ∧ (14#4 : RegNum) ≠ pcNum ∧
      Runs (TestOpcode.row .cmp .al 0#4 (.imm 0#4 1#8)) ((start (svc 0#4) []).setPc 0xFFFFFFFC#32)) ∧
    (pendingException (((start 0xD1#32 []).setPipe (some ⟨.word 0xE1A00008#32, .aborted⟩)).setHazard true) = none ∧
      decodeWord 0xE1A00008#32 = .ok (.movShImm .al false 0#4 0#5 .lsl 8#4) ∧
      (((start 0xD1#32 []).setPipe (some ⟨.word 0xE1A00008#32, .aborted⟩)).setHazard true).bankHazard = true ∧
      (∃ r ∈ touchedRegs (start 0xD1#32 []).mode (.movShImm .al false 0#4 0#5 .lsl 8#4), bankedIn (start 0xD1#32 []).mode r = true) ∧
      (∃ r ∈ touchedRegs (start (svc 0#4) []).mode (.swi .al 0#24), bankedIn (start (svc 0#4) []).mode r = true)) ∧
    (pendingException (start 0x30#32 []) = none ∧ (start 0x30#32 []).thumb = true ∧
      (start 0x30#32 []).accessExists (start 0x30#32 []).pc .half = true) ∧
    (pendingException (placed 0xF0000000) = none ∧ (placed 0xF0000000).thumb = false ∧
      decodeWord 0xF0000000#32 = .error .condNever) :=
  ⟨by decide, ⟨meets (by decide), by decide, meets (by decide)⟩, by decide, by decide, by decide⟩

/-- A state that is not the reset state has the invariant, and its step answers a next state. -/
theorem witness_StepKeepsInvariant :
    (placed 0xE5810004).Inv ∧ ∃ t, step (placed 0xE5810004) = .next t ∧ (t.pc == 0x8004#32) = true :=
  ⟨⟨by decide, fun _ => by decide, fun h => absurd h (by decide), by decide, by decide, by decide⟩, gives_next (by decide)⟩

theorem witness_UserModeConfined :
    psrM ((start 0x10#32 []).withFetchWord 32 0xE129F000).cpsr = Mode.usr.bits ∧
    ∃ t, step ((start 0x10#32 []).withFetchWord 32 0xE129F000) = .next t ∧ (t.pc == 0x8004#32) = true :=
  ⟨by decide, gives_next (by decide)⟩

theorem witness_ThumbOnlyByExchangeOrReturn :
    (∃ t, exec (.bx .al 0#4) (start (svc 0#4) [(0#4, 0x9001#32)]) = .next t ∧ psrT t.cpsr = true) ∧
    psrT (start (svc 0#4) [(0#4, 0x9001#32)]).cpsr = false :=
  ⟨gives_next (by decide), by decide⟩

theorem witness_BankedRegisters : (14#4 : RegNum) ≠ pcNum ∧ (8#4 : RegNum) ≠ pcNum := by decide

/-- A word that wraps at the top of memory, and the byte after it. -/
theorem witness_MemoryReadsBack : 4 ∉ accessAddrs 0xFFFFFFFF#32 .word ∧ 3 ∉ accessAddrs 0xFFFFFFFF#32 .word ∧
    2 ∈ accessAddrs 0xFFFFFFFF#32 .word := by decide

theorem witness_CanonicalMemoriesAreEqual : Memory.wf dataMem = true ∧ Memory.wf (Memory.writeSize dataMem 0x1000#32 0x11223344#32 .word) = true := by
  decide


end Sys2Proof.Machine
end

/-! The instruction formats of R93 to R97, and the round trip: the decoder reads the word of every instruction back. -/

namespace Sys2Proof

/-- The formats of R93 to R97, told apart as the arms of R92 tell them apart. `direct` is what `decodeClass` reads by
itself: classes 100 to 111, and the undefined instruction. -/
inductive WordFormat where
  | dpImm | dpShImm | dpShReg | mulSwp | halfword | misc | msrImm | lsImm | lsReg | direct

/-- The format an instruction is written in. -/
def Instr.format : Instr → WordFormat
  | .andImm .. | .eorImm .. | .subImm .. | .rsbImm .. | .addImm .. | .adcImm .. | .sbcImm .. | .rscImm ..
  | .tstImm .. | .teqImm .. | .cmpImm .. | .cmnImm .. | .orrImm .. | .movImm .. | .bicImm .. | .mvnImm .. => .dpImm
  | .andShImm .. | .eorShImm .. | .subShImm .. | .rsbShImm .. | .addShImm .. | .adcShImm .. | .sbcShImm ..
  | .rscShImm .. | .tstShImm .. | .teqShImm .. | .cmpShImm .. | .cmnShImm .. | .orrShImm .. | .movShImm ..
  | .bicShImm .. | .mvnShImm .. => .dpShImm
  | .andShReg .. | .eorShReg .. | .subShReg .. | .rsbShReg .. | .addShReg .. | .adcShReg .. | .sbcShReg ..
  | .rscShReg .. | .tstShReg .. | .teqShReg .. | .cmpShReg .. | .cmnShReg .. | .orrShReg .. | .movShReg ..
  | .bicShReg .. | .mvnShReg .. => .dpShReg
  | .mul .. | .mla .. | .umull .. | .umlal .. | .smull .. | .smlal .. | .swp .. | .swpb .. => .mulSwp
  | .ldrhImm .. | .ldrhReg .. | .strhImm .. | .strhReg .. | .ldrsbImm .. | .ldrsbReg .. | .ldrshImm ..
  | .ldrshReg .. => .halfword
  | .bx .. | .mrs .. | .msrReg .. => .misc
  | .msrImm .. => .msrImm
  | .ldrImm .. | .ldrImmPost .. | .strImm .. | .strImmPost .. | .ldrbImm .. | .ldrbImmPost .. | .strbImm ..
  | .strbImmPost .. | .ldrtImm .. | .strtImm .. | .ldrbtImm .. | .strbtImm .. => .lsImm
  | .ldrReg .. | .ldrRegPost .. | .strReg .. | .strRegPost .. | .ldrbReg .. | .ldrbRegPost .. | .strbReg ..
  | .strbRegPost .. | .ldrtReg .. | .strtReg .. | .ldrbtReg .. | .strbtReg .. => .lsReg
  | .undefined .. | .ldm .. | .stm .. | .b .. | .bl .. | .ldc .. | .stc .. | .cdp .. | .mcr .. | .mrc .. | .swi .. => .direct

/-- The decoder of a format: what the arm of R92 for it does with a word whose condition is `c`. -/
def WordFormat.decode (f : WordFormat) (c : Cond) (w : Word) : Except DecodeError Instr :=
  match f with
  | .dpImm => decodeDpImm c w
  | .dpShImm => decodeDpShImm c w
  | .dpShReg => decodeDpShReg c w
  | .mulSwp => decodeMulSwp c w
  | .halfword => decodeHs c w
  | .misc => decodeMisc c w
  | .msrImm => decode001 c w
  | .lsImm => decodeLsImm c w
  | .lsReg => decodeLsReg c w
  | .direct => decodeClass c w

/-- The tests of R92 take the word of an instruction to the decoder of its format. -/
theorem decodeWord_encode_eq_format (i : Instr) : decodeWord (encode i) = i.format.decode i.cond (encode i) := by
  cases i <;> simp (disch := decide) [encode, Word.pushBit, field_push_high, field_push_low, bitAt_push_high,
    bitAt_push_low, Instr.format, Instr.cond, WordFormat.decode, decodeWord, decodeClass, decode000, decode001]

/-- The decoder of the format reads every field of the word back, and finds zero where a field should be zero (R110). -/
theorem format_decode_encode (i : Instr) : i.format.decode i.cond (encode i) = .ok i := by
  cases i <;> simp (disch := decide) [encode, Word.pushBit, field_push_high, field_push_low, bitAt_push_high,
    bitAt_push_low, Instr.format, Instr.cond, WordFormat.decode, decodeDpImm, decodeDpShImm, decodeDpShReg,
    decodeMulSwp, decodeHs, decodeMisc, decode001, decodeLsImm, decodeLsReg, decodeClass, decodeBlk,
    decodeCoTransfer, decode111, requireZero]

/-- The decoder inverts the encoder (R90 to R100). -/
theorem decodeWord_encode (i : Instr) : decodeWord (encode i) = .ok i :=
  (decodeWord_encode_eq_format i).trans (format_decode_encode i)

end Sys2Proof

/-! What a step does around the instruction: the word it fetches, and the step that runs it (R8, R62, R73). -/

namespace Sys2Proof.Machine

/-- A word written to memory reads back (R60, R61). -/
theorem Memory.readSize_writeSize_word (m : Memory) (a v : Word) : (m.writeSize a v .word).readSize a .word = v := by
  have byte (k : Nat) (hk : k < 4) : (m.writeSize a v .word).read (byteAddr a k) = byteOf v k :=
    Memory.read_writeSize_same m a v .word k hk
  rw [Memory.readSize, byte 0 (by decide), byte 1 (by decide), byte 2 (by decide), byte 3 (by decide),
    wordOfBytes_byteOf]

/-- A fetch from an existing address gives the word there (R62). -/
theorem fetchAt_of_exists {s : State} {a : Word} (he : s.accessExists a .word = true) :
    (fetchAt s a).1 = .word (s.readValue a .word) := by
  cases hd : s.accessDevice a .word with
  | false => simp [fetchAt, memRead_memory he hd, State.readValue, hd]
  | true => simp [fetchAt, memRead_device he hd, State.readValue, hd]

/-- The fetch delivers the next word: the one fetched ahead, or the one at PC (R62, R73). -/
theorem fetchNext_of_nextWord {s : State} {w : Word} (h : s.nextWord w) : (fetchNext s).1 = .word w := by
  obtain ⟨ahead, atPc⟩ := h
  unfold fetchNext
  split
  next p hp => exact ahead p hp
  next hp =>
    obtain ⟨he, hw⟩ := atPc hp
    exact (fetchAt_of_exists he).trans (congrArg Fetched.word hw)

/-- After the fetch two words are fetched ahead (R40(a)). -/
theorem fetchNext_pipe_isSome (s : State) : (fetchNext s).2.pipe.isSome = true := by
  unfold fetchNext; split <;> rfl

/-- The fetch of a step changes nothing of the core state (R62). -/
theorem sameCore_fetchNext_beginStep (s : State) : SameCore s (fetchNext s.beginStep).2 := by
  obtain ⟨hregs, hpc, hcpsr, hspsr, hmem, _, _, hdraws, hplat⟩ := fetchNext_state s.beginStep
  exact ⟨hregs, hpc, hcpsr, hspsr, hmem, hdraws, hplat⟩

/-- With nothing pending, in ARM state, a step is `armStep` (R8). -/
theorem step_eq_armStep {s : State} (hp : pendingException s = none) (ht : s.thumb = false) : step s = armStep exec s := by
  simp [step, hp, ht]

/-- Where the fetch delivers the word of an instruction that breaks no hazard, that instruction is run (R8). -/
theorem armStep_of_fetched {run : Instr → State → Result} {s : State} {w : Word} {i : Instr}
    (hf : (fetchNext s.beginStep).1 = .word w) (hd : decodeWord w = .ok i) (hb : breaksHazard i s = false) :
    armStep run s = run i (fetchNext s.beginStep).2 := by
  have fetched : fetchNext s.beginStep = (.word w, (fetchNext s.beginStep).2) := Prod.ext hf rfl
  rw [armStep, fetched]
  simp [hd, hb]

/-- A step runs the instruction that the next word decodes to (R8, R62). -/
theorem step_of_nextWord {s : State} {w : Word} {i : Instr} (hp : pendingException s = none) (ht : s.thumb = false)
    (hw : s.nextWord w) (hd : decodeWord w = .ok i) (hb : breaksHazard i s = false) :
    step s = exec i (fetchNext s.beginStep).2 :=
  (step_eq_armStep hp ht).trans (armStep_of_fetched (fetchNext_of_nextWord (s := s.beginStep) hw) hd hb)

/-- Settles O46: the fetch delivers the next word and leaves the core state as it was. -/
theorem stepRunsDecodedInstruction : Obligations.StepRunsDecodedInstruction := by
  intro s w i hp ht hw hd hb
  obtain ⟨_, _, _, _, _, hhazard, hinputs, _, _⟩ := fetchNext_state s.beginStep
  exact ⟨step_of_nextWord hp ht hw hd hb, sameCore_fetchNext_beginStep s, hinputs, hhazard,
    fetchNext_pipe_isSome s.beginStep⟩

/-! An instruction's word placed at PC (R304). -/

/-- Placing a word of 32 bits stores it whole. -/
theorem State.withFetchWord_toNat (s : State) (w : Word) : s.withFetchWord 32 w.toNat = placeWord s w := by
  simp [State.withFetchWord, Nat.mod_eq_of_lt w.isLt]

/-- A word placed at an existing memory address is the next word. -/
theorem nextWord_placeWord {s : State} (w : Word) (he : s.accessExists s.pc .word = true)
    (hd : s.accessDevice s.pc .word = false) : (placeWord s w).nextWord w := by
  have hd' : (placeWord s w).accessDevice s.pc .word = false := hd
  have hread : (placeWord s w).readValue s.pc .word = w :=
    calc (placeWord s w).readValue s.pc .word
      _ = (s.mem.writeSize s.pc w .word).readSize s.pc .word := if_neg (by simp [hd'])
      _ = w := Memory.readSize_writeSize_word s.mem s.pc w
  exact ⟨nofun, fun _ => ⟨he, hread⟩⟩

/-- Settles O47: the placed word is the next word, and the decoder reads it back to the instruction. -/
theorem placedInstructionRuns : Obligations.PlacedInstructionRuns := by
  intro s i hp ht hh he hd
  rw [State.withFetchWord_toNat]
  have hb : breaksHazard i (placeWord s (encode i)) = false := by
    have hclear : (placeWord s (encode i)).bankHazard = false := hh
    simp [breaksHazard, hclear]
  exact step_of_nextWord hp ht (nextWord_placeWord (encode i) he hd) (decodeWord_encode i) hb

end Sys2Proof.Machine

/-! What an instruction does: its body, and the way it comes to its end. -/

namespace Sys2Proof.Machine

/-! The words of PC: which are multiples of four (R28, R64, R65). -/

/-- Bits 1:0 are clear in the multiples of four. -/
theorem lowBits_eq_zero_iff (w : Word) : field w 0 2 = 0#2 ↔ w.toNat % 4 = 0 := by
  rw [← BitVec.toNat_inj]
  simp [field, BitVec.extractLsb'_toNat]

theorem lowBits_add {v w : Word} (hv : field v 0 2 = 0#2) (hw : field w 0 2 = 0#2) : field (v + w) 0 2 = 0#2 := by
  rw [lowBits_eq_zero_iff] at hv hw ⊢
  rw [BitVec.toNat_add]
  omega

/-- The aligned address (R28). -/
theorem lowBits_alignWord (v : Word) : field (alignWord v) 0 2 = 0#2 := by
  apply BitVec.eq_of_getLsbD_eq
  intro i hi
  interval_cases i <;> simp [getElem_field, alignWord, bitAt]

theorem bitAt_alignHalf (v : Word) {i : Nat} (hi : i < 32) : bitAt (alignHalf v) i = (decide (i ≠ 0) && bitAt v i) := by
  simp only [alignHalf, bitAt, BitVec.getLsbD_and]
  interval_cases i <;> simp

/-- The target of B and BL keeps the alignment of PC (R131). -/
theorem lowBits_branchTarget {s : State} (imm24 : BitVec 24) (h : field s.pc 0 2 = 0#2) :
    field (branchTarget s imm24) 0 2 = 0#2 := by
  have offset : field ((imm24 ++ 0b00#2).signExtend 32) 0 2 = 0#2 := by
    apply BitVec.eq_of_getLsbD_eq
    intro i hi
    rw [getLsbD_field, bitAt, BitVec.getLsbD_signExtend, BitVec.getLsbD_append]
    interval_cases i <;> simp
  exact lowBits_add (lowBits_add h (by decide)) offset

/-! The control bits of a status register. -/

/-- Words with the same bits 27:0 agree on each of them. -/
theorem bitAt_of_control {w x : Word} (h : field w 0 28 = field x 0 28) {i : Nat} (hi : i < 28) : bitAt w i = bitAt x i := by
  have bit := congrArg (·.getLsbD i) h
  simpa only [getLsbD_field, hi, decide_true, Bool.true_and, Nat.zero_add] using bit

theorem psrT_of_control {w x : Word} (h : field w 0 28 = field x 0 28) : psrT w = psrT x := bitAt_of_control h (by decide)

theorem psrM_of_control {w x : Word} (h : field w 0 28 = field x 0 28) : psrM w = psrM x :=
  field_ext fun _ _ hi => bitAt_of_control h (by omega)

theorem reserved_of_control {w x : Word} (h : field w 0 28 = field x 0 28) : field w 8 20 = field x 8 20 :=
  field_ext fun _ _ hi => bitAt_of_control h (by omega)

/-- A masked write leaves bits 27:8 as they were (R35, R222). -/
theorem reserved_psrWrite (w v mask : Word) : field (psrWrite w v mask) 8 20 = field w 8 20 :=
  field_ext fun i h8 h28 => by
    have unnamed : bitAt psrNamed i = false := by rw [bitAt_psrNamed i (by omega)]; simp; omega
    rw [bitAt_psrWrite _ _ _ _ (by omega), unnamed, Bool.and_false, if_neg Bool.false_ne_true]

/-- A write whose mask names no bit of M leaves M as it was (R222). -/
theorem psrM_psrWrite {w v mask : Word} (h : field mask 0 5 = 0#5) : psrM (psrWrite w v mask) = psrM w :=
  field_ext fun i _ h5 => by
    have masked : bitAt mask i = false := by
      have bit := congrArg (·.getLsbD i) h
      simpa only [getLsbD_field, show i < 5 by omega, decide_true, Bool.true_and, Nat.zero_add, BitVec.getLsbD_zero] using bit
    rw [bitAt_psrWrite _ _ _ _ (by omega), masked, Bool.false_and, if_neg Bool.false_ne_true]

/-! The body of an instruction: what it writes before it comes to its end. -/

/-- `u` is `s` after the body of an instruction: registers, flags, memory and the model's own records may have changed; PC, the
instructions fetched ahead, the control bits of CPSR, the SPSRs and the world have not. -/
structure BodyKeeps (s u : State) : Prop where
  pc : u.pc = s.pc
  pipe : u.pipe = s.pipe
  control : SameControl s u
  spsr : u.spsr = s.spsr
  memory : s.mem.wf = true → u.mem.wf = true
  world : SameWorld s u

namespace BodyKeeps

theorem refl (s : State) : BodyKeeps s s := ⟨rfl, rfl, rfl, rfl, id, rfl, rfl⟩

variable {s u : State} (h : BodyKeeps s u)
include h

theorem setPReg (p : PReg) (v : Word) : BodyKeeps s (u.setPReg p v) :=
  ⟨h.pc, h.pipe, h.control, h.spsr, h.memory, h.world⟩

theorem draw (n : Nat) : BodyKeeps s (u.draw n) := ⟨h.pc, h.pipe, h.control, h.spsr, h.memory, h.world⟩

theorem addIo (e : IoEvent) : BodyKeeps s (u.addIo e) := ⟨h.pc, h.pipe, h.control, h.spsr, h.memory, h.world⟩

theorem setHazard (b : Bool) : BodyKeeps s (u.setHazard b) := ⟨h.pc, h.pipe, h.control, h.spsr, h.memory, h.world⟩

theorem setFlags (n z c v : Bool) : BodyKeeps s (u.setCpsr (psrSetFlags u.cpsr n z c v)) :=
  ⟨h.pc, h.pipe, (control_setFlags ..).trans h.control, h.spsr, h.memory, h.world⟩

theorem writeMemory (a v : Word) (n : AccessSize) : BodyKeeps s (u.setMem (u.mem.writeSize a v n)) :=
  ⟨h.pc, h.pipe, h.control, h.spsr, fun hwf => Memory.wf_writeSize _ a v n (h.memory hwf), h.world⟩

theorem setReg {i : RegNum} (hi : i ≠ pcNum) (v : Word) : BodyKeeps s (u.setReg i v) := by
  rw [State.setReg_of_ne _ _ hi]; exact h.setPReg _ v

theorem writeBase {n : RegNum} {a : Addressing} (hn : a.writeback = none ∨ n ≠ pcNum) : BodyKeeps s (u.writeBase n a) := by
  obtain ⟨hpc, hpipe⟩ := State.writeBase_pc u n a hn
  obtain ⟨hinputs, hplatform⟩ := h.world
  refine ⟨hpc.trans h.pc, hpipe.trans h.pipe, ?_, ?_, fun hwf => ?_, ?_, ?_⟩
  · rw [SameControl, State.writeBase_cpsr]; exact h.control
  · rw [State.writeBase_spsr]; exact h.spsr
  · rw [State.writeBase_mem]; exact h.memory hwf
  · rw [State.writeBase_inputs]; exact hinputs
  · rw [State.writeBase_platform]; exact hplatform

/-- After a block read or write (R211). -/
theorem sameButMemory {v : State} (k : SameButMemory u v) (hm : u.mem.wf = true → v.mem.wf = true) : BodyKeeps s v := by
  obtain ⟨-, hpc, hcpsr, hspsr, hpipe, -, hinputs, -, hplatform⟩ := k
  exact ⟨hpc.trans h.pc, hpipe.trans h.pipe, by rw [SameControl, hcpsr]; exact h.control, hspsr.trans h.spsr,
    hm ∘ h.memory, hinputs.trans h.world.1, hplatform.trans h.world.2⟩

/-- After the registers of a list have been loaded (R213). -/
theorem onlyRegs {v : State} (k : OnlyRegs u v) : BodyKeeps s v := by
  obtain ⟨hpc, hcpsr, hspsr, hmem, hpipe, -, hinputs, -, hplatform⟩ := k
  exact ⟨hpc.trans h.pc, hpipe.trans h.pipe, by rw [SameControl, hcpsr]; exact h.control, hspsr.trans h.spsr,
    fun hwf => by rw [hmem]; exact h.memory hwf, hinputs.trans h.world.1, hplatform.trans h.world.2⟩

/-- After a load that did not abort (R184, R187). -/
theorem load {ld : Load} (hl : ld ∈ [loadWord, loadByte, loadHalf, loadSignedByte, loadSignedHalf]) {a : Word}
    {r : Word × State} (hr : ld u a = some r) : BodyKeeps s r.2 := by
  obtain hsame | ⟨e, he⟩ := load_state hl hr
  · rw [hsame]; exact h
  · rw [he]; exact h.addIo e

/-- After a store that did not abort (R186, R188). -/
theorem store {st : Store} (hs : st ∈ [storeWord, storeByte, storeHalf]) {a v : Word} {t : State}
    (ht : st u a v = some t) : BodyKeeps s t := by
  obtain ⟨b, n, rfl⟩ | ⟨e, rfl⟩ := store_state hs ht
  · exact h.writeMemory b v n
  · exact h.addIo e

theorem mode : u.mode = s.mode := State.mode_congr (psrM_of_control h.control)

theorem thumb : u.thumb = s.thumb := psrT_of_control h.control

theorem currentSpsr : u.currentSpsr = s.currentSpsr := by simp only [State.currentSpsr, h.mode, h.spsr]

end BodyKeeps

/-! The end of an instruction. -/

/-- The ways an instruction `i` comes to its end `t` from `s`. -/
inductive Effect (i : Instr) (s t : State) : Prop
  /-- The body, then on to the next instruction (R28). -/
  | follow {u : State} (body : BodyKeeps s u) (next : advance u = .next t)
  /-- The body, then a jump, which keeps the alignment of PC (R28, R131). -/
  | jump {u : State} {v : Word} (body : BodyKeeps s u) (aligned : field s.pc 0 2 = 0#2 → field v 0 2 = 0#2)
      (next : t = u.branchTo v)
  /-- The body, then the entry of an exception (R183, R231 to R233). -/
  | entry {u : State} (e : Exc) (body : BodyKeeps s u) (next : t = u.takeException e)
  /-- The body, then an exception return (R148, R215). -/
  | ret {u : State} {v : Word} (body : BodyKeeps s u) (next : exceptionReturn v u = .next t)
  /-- BX (R134). -/
  | exchange {c : Cond} {rm : RegNum} (isBx : i = .bx c rm) (next : bxOp (s.reg rm) s = .next t)
  /-- MSR to CPSR (R222). -/
  | status {mask : BitVec 4} {v : Word} (next : msrCpsr mask v s = .next t)
  /-- MSR to SPSR (R222). -/
  | saved {mask : BitVec 4} {v : Word} (next : msrSpsr mask v s = .next t)

section
variable {i : Instr} {s t : State}

/-- A failed condition only advances; a restriction answers no next state (R122). -/
theorem effect_of_guarded {e : Result} (h : guarded i s e = .next t)
    (he : i.restriction = none → e = .next t → Effect i s t) : Effect i s t := by
  obtain ⟨-, hadv⟩ | ⟨-, hw, hnext⟩ := guarded_cases h
  · exact .follow (.refl s) hadv
  · exact he (by simpa [Instr.wellFormed] using hw) hnext

theorem effect_of_finishReg {d : RegNum} {v : Word} {u : State} (body : BodyKeeps s u)
    (h : finishReg d v u = .next t) : Effect i s t := by
  unfold finishReg at h
  split at h
  next hd =>
    subst hd
    rw [State.setReg_pcNum] at h
    exact .jump body (fun _ => lowBits_alignWord v) (Host.Outcome.next.inj h).symm
  next hd => exact .follow (body.setReg hd v) h

theorem effect_of_abortTransfer {n : RegNum} {a : Addressing} {u : State} (hn : a.writeback = none ∨ n ≠ pcNum)
    (body : BodyKeeps s u) (h : abortTransfer n a u = .next t) : Effect i s t := by
  refine .entry .dataAbort ?_ (Host.Outcome.next.inj h).symm
  split
  · exact body.writeBase hn
  · exact body

/-! Data processing, multiplication and the status registers. -/

theorem effect_of_dataOp {f : Alu} {d : RegNum} {sf : Bool} {a : Word} {o : Operand2}
    (h : dataOp f d sf a o s = .next t) : Effect i s t := by
  unfold dataOp writeResult at h
  split at h
  next hd =>
    split at h
    · exact .ret (.refl s) h
    · subst hd
      rw [State.setReg_pcNum] at h
      exact .jump (.refl s) (fun _ => lowBits_alignWord _) (Host.Outcome.next.inj h).symm
  next hd =>
    refine .follow (.setReg ?_ hd _) h
    split
    · exact (BodyKeeps.refl s).setFlags ..
    · exact .refl s

theorem effect_of_testOp {f : Alu} {a : Word} {o : Operand2} (h : testOp f a o s = .next t) : Effect i s t :=
  .follow ((BodyKeeps.refl s).setFlags ..) h

theorem effect_of_mulOp {sf : Bool} {rd : RegNum} {r : Word} (h : mulOp sf rd r s = .next t) : Effect i s t := by
  refine effect_of_finishReg ?_ h
  split
  · exact ((BodyKeeps.refl s).setFlags ..).draw 1
  · exact .refl s

theorem effect_of_mullOp {sf : Bool} {hi lo : RegNum} {p : BitVec 64} (hhi : hi ≠ pcNum)
    (h : mullOp sf hi lo p s = .next t) : Effect i s t := by
  refine effect_of_finishReg (.setReg ?_ hhi _) h
  split
  · exact ((BodyKeeps.refl s).setFlags ..).draw 1
  · exact .refl s

theorem effect_of_mrsOp {spsr : Bool} {d : RegNum} (h : mrsOp spsr d s = .next t) : Effect i s t := by
  obtain ⟨w, -, hfin⟩ := mrsOp_cases h
  exact effect_of_finishReg ((BodyKeeps.refl s).draw 1) hfin

theorem effect_of_msrOp {spsr : Bool} {mask : BitVec 4} {v : Word} (h : msrOp spsr mask v s = .next t) : Effect i s t := by
  unfold msrOp at h
  split at h
  · exact .saved h
  · exact .status h

/-! Transfers. -/

theorem effect_of_loadOp {ld : Load} (hl : ld ∈ [loadWord, loadByte, loadHalf, loadSignedByte, loadSignedHalf])
    {n d : RegNum} {a : Addressing} (hn : a.writeback = none ∨ n ≠ pcNum) (h : loadOp ld n d a s = .next t) :
    Effect i s t := by
  unfold loadOp at h
  split at h
  next => exact effect_of_abortTransfer hn (.refl s) h
  next r hr => exact effect_of_finishReg (((BodyKeeps.refl s).load hl hr).writeBase hn) h

theorem effect_of_storeOp {st : Store} (hs : st ∈ [storeWord, storeByte, storeHalf]) {n : RegNum} {v : Word}
    {a : Addressing} (hn : a.writeback = none ∨ n ≠ pcNum) (h : storeOp st n v a s = .next t) : Effect i s t := by
  unfold storeOp at h
  split at h
  next => exact effect_of_abortTransfer hn (.refl s) h
  next u hu => exact .follow (((BodyKeeps.refl s).store hs hu).writeBase hn) h

theorem effect_of_swapOp {ld : Load} {st : Store}
    (hl : ld ∈ [loadWord, loadByte, loadHalf, loadSignedByte, loadSignedHalf])
    (hs : st ∈ [storeWord, storeByte, storeHalf]) {n d m : RegNum} (h : swapOp ld st n d m s = .next t) :
    Effect i s t := by
  obtain ⟨-, ht⟩ | ⟨r, hr, -, ht⟩ | ⟨r, u, hr, hu, hfin⟩ := swapOp_cases h
  · exact .entry .dataAbort (.refl s) ht
  · exact .entry .dataAbort ((BodyKeeps.refl s).load hl hr) ht
  · exact effect_of_finishReg (((BodyKeeps.refl s).load hl hr).store hs hu) hfin

theorem effect_of_ldmOp {p u sf w : Bool} {n : RegNum} {list : BitVec 16} (hn : n ≠ pcNum)
    (h : ldmOp p u sf w n list s = .next t) : Effect i s t := by
  obtain ⟨same, hmem⟩ := readBlock_state (blockTargets p u w n list s) s
  have read := (BodyKeeps.refl s).sameButMemory same (by rw [hmem]; exact id)
  obtain ⟨-, ⟨-, habort⟩ | ⟨vals, -, hfin⟩⟩ := ldmOp_cases h
  · exact effect_of_abortTransfer (.inr hn) (read.onlyRegs (scrambleRegs_onlyRegs ..)) habort
  · have body := (read.onlyRegs (loadRegs_onlyRegs (if sf && !list.getLsbD 15 then .usr else s.mode)
      ((regList list).zip vals) _)).writeBase (a := blockAddressing p u w n list s) (.inr hn)
    simp only [finishLdm] at hfin
    split at hfin
    · split at hfin
      · exact .ret body hfin
      · exact .jump body (fun _ => lowBits_alignWord _) (Host.Outcome.next.inj hfin).symm
    · refine .follow ?_ hfin
      split
      · exact body.setHazard true
      · exact body

theorem effect_of_stmOp {p u sf w : Bool} {n : RegNum} {list : BitVec 16} (hn : n ≠ pcNum)
    (h : stmOp p u sf w n list s = .next t) : Effect i s t := by
  obtain ⟨same, hmem⟩ := writeBlock_state (storedWords p u sf w n list s) s
  have written := (BodyKeeps.refl s).sameButMemory same hmem
  obtain ⟨-, ⟨-, habort⟩ | ⟨-, hadv⟩⟩ := stmOp_cases h
  · exact effect_of_abortTransfer (.inr hn) written habort
  · exact .follow (written.writeBase (.inr hn)) hadv

/-! Branches and traps. -/

theorem effect_of_branchOp {imm24 : BitVec 24} {u : State} (body : BodyKeeps s u) (h : branchOp imm24 u = .next t) :
    Effect i s t := by
  obtain ⟨-, ht⟩ := branchOp_cases h
  exact .jump body (fun aligned => lowBits_branchTarget imm24 (by rw [body.pc]; exact aligned)) ht

theorem effect_of_trap {e : Exc} (h : .next (s.takeException e) = (.next t : Result)) : Effect i s t :=
  .entry e (.refl s) (Host.Outcome.next.inj h).symm

end

/-! What the operand restrictions give: no R15 where the body writes a register (R181, R182, R217, R247). -/

theorem firstBroken_cons_none {r : Restriction} {b : Bool} {l : List (Restriction × Bool)} :
    firstBroken ((r, b) :: l) = none ↔ b = false ∧ firstBroken l = none := by
  cases b <;> simp [firstBroken]

theorem writeback_of_restrictTransfer {p u wb narrow : Bool} {n d : RegNum} {rm : Option RegNum} {base offset : Word}
    (h : restrictTransfer wb narrow n d rm = none) :
    (addressing p u wb base offset).writeback = none ∨ n ≠ pcNum := by
  simp only [restrictTransfer, firstBroken_cons_none] at h
  obtain ⟨-, -, hpc, -⟩ := h
  cases wb
  · exact .inl rfl
  · exact .inr (by simpa using hpc)

theorem writeback_of_restrictHs {ix : HsIndex} {u : Bool} {n d : RegNum} {rm : Option RegNum} {o : HsOffset} {s : State}
    (h : restrictHs ix n d rm = none) : (hsAddressing ix u n o s).writeback = none ∨ n ≠ pcNum :=
  writeback_of_restrictTransfer (restrictHs_none h).2

theorem base_ne_pc_of_restrictLdm {sf w : Bool} {n : RegNum} {list : BitVec 16} (h : restrictLdm sf w n list = none) :
    n ≠ pcNum := by
  simp only [restrictLdm, firstBroken_cons_none] at h
  obtain ⟨-, hpc, -⟩ := h
  simpa using hpc

theorem base_ne_pc_of_restrictStm {sf w : Bool} {n : RegNum} {list : BitVec 16} (h : restrictStm sf w n list = none) :
    n ≠ pcNum := by
  simp only [restrictStm, firstBroken_cons_none] at h
  obtain ⟨-, hpc, -⟩ := h
  simpa using hpc

theorem rdHi_ne_pc_of_restrictMull {hi lo rs rm : RegNum} (h : restrictMull hi lo rs rm = none) : hi ≠ pcNum := by
  simp only [restrictMull, firstBroken_cons_none] at h
  obtain ⟨hpc, -⟩ := h
  rintro rfl
  simp at hpc

/-! Every instruction. -/

/-- Everything an instruction can do when it answers a next state. -/
theorem exec_effect {i : Instr} {s t : State} (h : exec i s = .next t) : Effect i s t := by
  cases i with
  | andImm | andShImm | andShReg | eorImm | eorShImm | eorShReg | subImm | subShImm | subShReg | rsbImm | rsbShImm | rsbShReg
  | addImm | addShImm | addShReg | adcImm | adcShImm | adcShReg | sbcImm | sbcShImm | sbcShReg | rscImm | rscShImm | rscShReg
  | orrImm | orrShImm | orrShReg | movImm | movShImm | movShReg | bicImm | bicShImm | bicShReg | mvnImm | mvnShImm
  | mvnShReg => exact effect_of_guarded h fun _ => effect_of_dataOp
  | tstImm | tstShImm | tstShReg | teqImm | teqShImm | teqShReg | cmpImm | cmpShImm | cmpShReg | cmnImm | cmnShImm
  | cmnShReg => exact effect_of_guarded h fun _ => effect_of_testOp
  | mul | mla => exact effect_of_guarded h fun _ => effect_of_mulOp
  | umull | umlal | smull | smlal =>
    exact effect_of_guarded h fun hr => effect_of_mullOp (rdHi_ne_pc_of_restrictMull hr)
  | swp | swpb => exact effect_of_guarded h fun _ => effect_of_swapOp (by simp) (by simp)
  | bx => exact effect_of_guarded h fun _ => .exchange rfl
  | mrs => exact effect_of_guarded h fun _ => effect_of_mrsOp
  | msrReg | msrImm => exact effect_of_guarded h fun _ => effect_of_msrOp
  | ldrImm | ldrImmPost | ldrReg | ldrRegPost | ldrbImm | ldrbImmPost | ldrbReg | ldrbRegPost | ldrtImm | ldrtReg
  | ldrbtImm | ldrbtReg =>
    exact effect_of_guarded h fun hr => effect_of_loadOp (by simp) (writeback_of_restrictTransfer hr)
  | strImm | strImmPost | strReg | strRegPost | strbImm | strbImmPost | strbReg | strbRegPost | strtImm | strtReg
  | strbtImm | strbtReg =>
    exact effect_of_guarded h fun hr => effect_of_storeOp (by simp) (writeback_of_restrictTransfer hr)
  | ldrsbImm | ldrsbReg => exact effect_of_guarded h fun hr => effect_of_loadOp (by simp) (writeback_of_restrictHs hr)
  | ldrhImm | ldrhReg | ldrshImm | ldrshReg =>
    exact effect_of_guarded h fun hr heven =>
      effect_of_loadOp (by simp) (writeback_of_restrictHs hr) (evenOnly_cases heven).2
  | strhImm | strhReg =>
    exact effect_of_guarded h fun hr heven =>
      effect_of_storeOp (by simp) (writeback_of_restrictHs hr) (evenOnly_cases heven).2
  | ldm => exact effect_of_guarded h fun hr => effect_of_ldmOp (base_ne_pc_of_restrictLdm hr)
  | stm => exact effect_of_guarded h fun hr => effect_of_stmOp (base_ne_pc_of_restrictStm hr)
  | b => exact effect_of_guarded h fun _ => effect_of_branchOp (.refl s)
  | bl => exact effect_of_guarded h fun _ => effect_of_branchOp ((BodyKeeps.refl s).setReg (by decide) _)
  | swi | undefined | ldc | stc | cdp | mcr | mrc => exact effect_of_guarded h fun _ => effect_of_trap

end Sys2Proof.Machine

/-! The invariant kept by every step, and what else follows from the ways an instruction ends. -/

namespace Sys2Proof.Machine

/-! The invariant through each way a step can end. -/

/-- The invariant speaks of memory, PC, CPSR and the SPSRs alone. -/
theorem State.Inv.congr {s t : State} (h : s.Inv) (hmem : t.mem.wf = true) (hpc : t.pc = s.pc)
    (hcpsr : SameControl s t) (hspsr : t.spsr = s.spsr) : t.Inv where
  memory := hmem
  alignedArm hT := by
    rw [hpc]; exact h.alignedArm ((psrT_of_control hcpsr).symm.trans hT)
  alignedThumb hT := by
    rw [hpc]; exact h.alignedThumb ((psrT_of_control hcpsr).symm.trans hT)
  mode := by rw [psrM_of_control hcpsr]; exact h.mode
  reserved := (reserved_of_control hcpsr).trans h.reserved
  reservedSpsr k := by rw [hspsr]; exact h.reservedSpsr k

theorem BodyKeeps.inv {s u : State} (body : BodyKeeps s u) (h : s.Inv) : u.Inv :=
  h.congr (body.memory h.memory) body.pc body.control body.spsr

theorem SameCore.inv {s t : State} (core : SameCore s t) (h : s.Inv) : t.Inv := by
  obtain ⟨-, hpc, hcpsr, hspsr, hmem, -, -⟩ := core
  exact h.congr (by rw [hmem]; exact h.memory) hpc (by rw [SameControl, hcpsr]) hspsr

section
variable {s t : State} (h : s.Inv)
include h

/-- Within ARM state PC may go to any aligned address (R28). -/
theorem State.Inv.setPc (hT : s.thumb = false) {v : Word} (hv : field v 0 2 = 0#2) : (s.setPc v).Inv where
  memory := h.memory
  alignedArm _ := hv
  alignedThumb hT' := absurd hT' (by rw [State.setPc_thumb, hT]; decide)
  mode := h.mode
  reserved := h.reserved
  reservedSpsr := h.reservedSpsr

theorem State.Inv.branchTo (hT : s.thumb = false) {v : Word} (hv : field v 0 2 = 0#2) : (s.branchTo v).Inv :=
  (h.setPc hT hv).congr h.memory rfl rfl rfl

/-- The next word is aligned as this one is (R28). -/
theorem State.Inv.advance (hT : s.thumb = false) (hnext : advance s = .next t) : t.Inv := by
  obtain ⟨-, rfl⟩ := advance_cases hnext
  exact h.setPc hT (lowBits_add (h.alignedArm hT) (by decide))

/-- Vectors are aligned, every exception has a mode, and the saved CPSR holds no reserved bit (R251, R256). -/
theorem State.Inv.takeException (e : Exc) : (s.takeException e).Inv where
  memory := by rw [State.takeException_mem]; exact h.memory
  alignedArm _ := by rw [State.takeException_pc]; cases e <;> decide
  alignedThumb _ := by rw [State.takeException_pc]; cases e <;> decide
  mode := by simp
  reserved := by simpa using h.reserved
  reservedSpsr k := by
    rw [State.takeException_spsr]
    split
    · exact h.reserved
    · exact h.reservedSpsr k

/-- A reset leaves the reserved bits of CPSR alone and those of the SPSRs clear (R301, log 11). -/
theorem State.Inv.takeReset : s.takeReset.Inv where
  memory := h.memory
  alignedArm _ := by rw [State.takeReset_pc]; decide
  alignedThumb _ := by rw [State.takeReset_pc]; decide
  mode := by rw [State.takeReset_cpsr, psrM_setFlags, psrM_enter, legalMode_bits]
  reserved := by rw [State.takeReset_cpsr, reserved_setFlags, reserved_enter]; exact h.reserved
  reservedSpsr k := by
    have named : field psrNamed 8 20 = 0#20 := by decide
    rw [State.takeReset_spsr, field, BitVec.extractLsb'_and, ← field, ← field, named, BitVec.and_zero]

/-- The restored T says how PC is aligned, and the restored mode is legal (R148, R226, R275). -/
theorem State.Inv.exceptionReturn {v : Word} (hnext : exceptionReturn v s = .next t) : t.Inv := by
  obtain ⟨w, hw, hlegal, rfl⟩ := exceptionReturn_cases hnext
  obtain ⟨k, -, rfl⟩ := State.currentSpsr_cases hw
  refine ⟨h.memory, fun hT => ?_, fun hT => ?_, hlegal, h.reservedSpsr k, h.reservedSpsr⟩
  · have hT' : psrT s.spsr[k] = false := hT
    rw [State.branchTo_pc, hT', if_neg Bool.false_ne_true]
    exact lowBits_alignWord v
  · have hT' : psrT s.spsr[k] = true := hT
    rw [State.branchTo_pc, hT', if_pos rfl, bitAt_alignHalf v (by decide)]
    rfl

/-- Bit 0 of the target is the new T, and bits 1:0 are not 10 (R134). -/
theorem State.Inv.bx {v : Word} (hnext : bxOp v s = .next t) : t.Inv := by
  obtain ⟨hv, rfl⟩ := bxOp_cases hnext
  refine ⟨h.memory, fun hT => ?_, fun _ => ?_, ?_, ?_, h.reservedSpsr⟩
  · have h0 : bitAt v 0 = false := by simpa [State.thumb] using hT
    have h1 : bitAt v 1 = false := by
      by_contra h1
      refine hv (BitVec.eq_of_getLsbD_eq fun i hi => ?_)
      interval_cases i <;> simp_all [getElem_field]
    refine BitVec.eq_of_getLsbD_eq fun i hi => ?_
    rw [getLsbD_field, State.branchTo_pc, bitAt_alignHalf v (by omega)]
    interval_cases i <;> simp [h1]
  · rw [State.branchTo_pc, bitAt_alignHalf v (by decide)]
    rfl
  · simpa using h.mode
  · simpa using h.reserved

/-- MSR to CPSR keeps T, writes no reserved bit, and writes M only with a legal mode (R222, R225, R226). -/
theorem State.Inv.msrCpsr (hT : s.thumb = false) {mask : BitVec 4} {v : Word} (hnext : msrCpsr mask v s = .next t) :
    t.Inv := by
  obtain ⟨hsameT, hlegal, hp, rfl⟩ := msrCpsr_cases hnext
  have hmode : legalMode (psrM (psrWrite s.cpsr v (msrMask mask s))) = true := by
    obtain hmask | hlegal := hlegal
    · rw [psrM_psrWrite hmask]; exact h.mode
    · exact hlegal
  have hT' : (s.setCpsr (psrWrite s.cpsr v (msrMask mask s))).thumb = false := hsameT.trans hT
  have written : (s.setCpsr (psrWrite s.cpsr v (msrMask mask s))).Inv :=
    ⟨h.memory, fun _ => h.alignedArm hT, fun hT1 => absurd hT1 (by rw [hT']; decide), hmode,
      (reserved_psrWrite ..).trans h.reserved, h.reservedSpsr⟩
  exact written.advance hT' (advance_eq hp)

/-- MSR to SPSR writes no reserved bit (R35, R222). -/
theorem State.Inv.msrSpsr (hT : s.thumb = false) {mask : BitVec 4} {v : Word} (hnext : msrSpsr mask v s = .next t) :
    t.Inv := by
  obtain ⟨k, -, hp, rfl⟩ := msrSpsr_cases hnext
  refine State.Inv.advance (s := s.setSpsr k _)
    ⟨h.memory, h.alignedArm, h.alignedThumb, h.mode, h.reserved, fun j => ?_⟩ hT (advance_eq hp)
  rw [State.setSpsr_spsr, State.setSpsr_getElem]
  split
  · exact (reserved_psrWrite ..).trans (h.reservedSpsr k)
  · exact h.reservedSpsr j

end

/-- An instruction run in ARM state keeps the invariant, whichever way it ends. -/
theorem Effect.inv {i : Instr} {s t : State} (effect : Effect i s t) (h : s.Inv) (hT : s.thumb = false) : t.Inv := by
  cases effect with
  | follow body next => exact (body.inv h).advance (body.thumb.trans hT) next
  | jump body aligned next => subst next; exact (body.inv h).branchTo (body.thumb.trans hT) (aligned (h.alignedArm hT))
  | entry e body next => subst next; exact (body.inv h).takeException e
  | ret body next => exact (body.inv h).exceptionReturn next
  | exchange _ next => exact h.bx next
  | status next => exact h.msrCpsr hT next
  | saved next => exact h.msrSpsr hT next

/-! The whole step. -/

/-- Everything a step can do when it answers a next state (R8): a reset, the entry of an exception at the boundary or after the
fetch, or an instruction run after the fetch. -/
theorem step_cases {s t : State} (h : step s = .next t) :
    t = s.beginStep.takeReset ∨
    (∃ e u, (u = s.beginStep ∨ u = (fetchNext s.beginStep).2) ∧ t = u.takeException e) ∨
    (s.thumb = false ∧ ∃ i, exec i (fetchNext s.beginStep).2 = .next t) := by
  unfold step at h
  split at h
  next => exact .inl (Host.Outcome.next.inj h).symm
  next e _ _ => exact .inr (.inl ⟨e, _, .inl rfl, (Host.Outcome.next.inj h).symm⟩)
  next =>
    split at h
    next =>
      unfold thumbStep at h
      split at h
      · cases h
      · exact .inr (.inl ⟨.prefetchAbort, _, .inl rfl, (Host.Outcome.next.inj h).symm⟩)
    next hT =>
      unfold armStep at h
      split at h
      next u hfetch =>
        refine .inr (.inl ⟨.prefetchAbort, u, .inr ?_, (Host.Outcome.next.inj h).symm⟩)
        rw [hfetch]
      next w u hfetch =>
        split at h
        next => cases h
        next i _ =>
          split at h
          · cases h
          · refine .inr (.inr ⟨by simpa using hT, i, ?_⟩)
            rw [hfetch]
            exact h

/-- Settles O55: each way a step can end keeps the invariant. -/
theorem stepKeepsInvariant : Obligations.StepKeepsInvariant := by
  intro s t h hstep
  have begun : s.beginStep.Inv := h.congr h.memory rfl rfl rfl
  have fetched : (fetchNext s.beginStep).2.Inv := (sameCore_fetchNext_beginStep s).inv h
  obtain rfl | ⟨e, u, rfl | rfl, rfl⟩ | ⟨hT, i, hexec⟩ := step_cases hstep
  · exact begun.takeReset
  · exact begun.takeException e
  · exact fetched.takeException e
  · obtain ⟨-, -, hcpsr, -⟩ := sameCore_fetchNext_beginStep s
    exact (exec_effect hexec).inv fetched (by rw [State.thumb, hcpsr]; exact hT)

/-! Where a step goes on (R28, R73). -/

/-- `t` follows `s` at the next word with the fetched words kept, or PC has been written and the pipeline is refilled. -/
def FollowsOrRefills (s t : State) : Prop :=
  t.pipe = none ∨ (s.pc < 0xFFFFFFFC#32 ∧ t.pc = s.pc + 4#32 ∧ t.pipe = s.pipe)

theorem followsOrRefills_of_advance {s t : State} (h : advance s = .next t) : FollowsOrRefills s t := by
  obtain ⟨hp, rfl⟩ := advance_cases h
  exact .inr ⟨hp, rfl, rfl⟩

theorem BodyKeeps.followsOrRefills {s u t : State} (body : BodyKeeps s u) (h : FollowsOrRefills u t) :
    FollowsOrRefills s t := by
  rw [FollowsOrRefills, ← body.pc, ← body.pipe]; exact h

/-- An instruction uses no input, keeps the platform, and goes on or refills the pipeline. -/
theorem Effect.sameWorld_followsOrRefills {i : Instr} {s t : State} (effect : Effect i s t) :
    SameWorld s t ∧ FollowsOrRefills s t := by
  cases effect with
  | follow body next =>
    refine ⟨?_, body.followsOrRefills (followsOrRefills_of_advance next)⟩
    obtain ⟨-, rfl⟩ := advance_cases next
    exact body.world
  | jump body _ next => subst next; exact ⟨body.world, .inl rfl⟩
  | entry e body next =>
    subst next
    refine ⟨?_, .inl rfl⟩
    rw [SameWorld, State.takeException_inputs, State.takeException_platform]
    exact body.world
  | ret body next => obtain ⟨w, -, -, rfl⟩ := exceptionReturn_cases next; exact ⟨body.world, .inl rfl⟩
  | exchange _ next => obtain ⟨-, rfl⟩ := bxOp_cases next; exact ⟨⟨rfl, rfl⟩, .inl rfl⟩
  | status next => obtain ⟨-, -, hp, rfl⟩ := msrCpsr_cases next; exact ⟨⟨rfl, rfl⟩, .inr ⟨hp, rfl, rfl⟩⟩
  | saved next => obtain ⟨k, -, hp, rfl⟩ := msrSpsr_cases next; exact ⟨⟨rfl, rfl⟩, .inr ⟨hp, rfl, rfl⟩⟩

/-- Settles O49: the boundary uses the input, the fetch keeps PC, and the instruction goes on or refills the pipeline. -/
theorem stepsFollowOrRefill : Obligations.StepsFollowOrRefill := by
  intro s t hstep
  obtain ⟨-, hpc, -, -, -, -, hinputs, -, hplatform⟩ := fetchNext_state s.beginStep
  obtain rfl | ⟨e, u, rfl | rfl, rfl⟩ | ⟨-, i, hexec⟩ := step_cases hstep
  · exact ⟨rfl, rfl, .inl rfl⟩
  · exact ⟨State.takeException_inputs .., State.takeException_platform .., .inl rfl⟩
  · exact ⟨(State.takeException_inputs ..).trans hinputs, (State.takeException_platform ..).trans hplatform, .inl rfl⟩
  · obtain ⟨⟨hi, hp⟩, hfollows⟩ := (exec_effect hexec).sameWorld_followsOrRefills
    rw [FollowsOrRefills, hpc] at hfollows
    exact ⟨hi.trans hinputs, hp.trans hplatform, hfollows⟩

/-! Who sets T (R33, R312). -/

/-- Settles O57: T changes only with BX or with the CPSR that an exception return restores. -/
theorem thumbOnlyByExchangeOrReturn : Obligations.ThumbOnlyByExchangeOrReturn := by
  intro i s t hexec hs ht
  have changed {w : Word} (hw : psrT w = false) (hcpsr : t.cpsr = w) : False := by
    rw [hcpsr, hw] at ht; cases ht
  cases exec_effect hexec with
  | follow body next =>
    obtain ⟨-, rfl⟩ := advance_cases next
    exact (changed (body.thumb.trans hs) rfl).elim
  | jump body _ next => subst next; exact (changed (body.thumb.trans hs) rfl).elim
  | entry e _ next => subst next; exact (changed (psrT_enter ..) (State.takeException_cpsr ..)).elim
  | ret body next =>
    obtain ⟨w, hw, -, rfl⟩ := exceptionReturn_cases next
    rw [body.currentSpsr] at hw
    exact .inr (State.currentSpsr_cases hw)
  | exchange isBx _ => exact .inl ⟨_, _, isBx⟩
  | status next =>
    obtain ⟨hT, -, -, rfl⟩ := msrCpsr_cases next
    exact (changed (hT.trans hs) rfl).elim
  | saved next =>
    obtain ⟨k, -, -, rfl⟩ := msrSpsr_cases next
    exact (changed hs rfl).elim

end Sys2Proof.Machine

/-! Where an instruction or a step stops by name (R29, R106 to R110, R310(c)). -/

namespace Sys2Proof.Machine

/-- Past the top of the address space nothing follows (R29). -/
theorem advance_refused {s : State} (h : 0xFFFFFFFC#32 ≤ s.pc) : advance s = .refused .pcWrap := if_pos h

/-- An instruction whose condition fails only advances (R122). -/
theorem exec_of_failed {i : Instr} {s : State} (h : condPassed i.cond s.cpsr = false) : exec i s = advance s := by
  cases i <;> exact guarded_failed _ h

/-- The unit of a data-processing opcode (R151 to R158, R163 to R166). -/
def DataOpcode.unit : DataOpcode → Alu
  | .and => aluAnd
  | .eor => aluEor
  | .sub => aluSub
  | .rsb => aluRsb
  | .add => aluAdd
  | .adc => aluAdc
  | .sbc => aluSbc
  | .rsc => aluRsc
  | .orr => aluOrr
  | .mov => aluMov
  | .bic => aluBic
  | .mvn => aluMvn

/-- A data-processing row is its opcode's unit on Rn and the second operand; the units of MOV and MVN do not use Rn. -/
theorem exec_dataRow (op : DataOpcode) (c : Cond) (sf : Bool) (rn rd : RegNum) (o : Operand2) (s : State) :
    exec (op.row c sf rn rd o) s = guarded (op.row c sf rn rd o) s (dataOp op.unit rd sf (s.reg rn) o s) := by
  cases op <;> cases o <;> rfl

/-- A test row is the unit of the destination form that computes the same (R159 to R162). -/
theorem exec_testRow (op : TestOpcode) (c : Cond) (rn : RegNum) (o : Operand2) (s : State) :
    exec (op.row c rn o) s = guarded (op.row c rn o) s (testOp op.base.unit (s.reg rn) o s) := by
  cases op <;> cases o <;> rfl

/-- A result that does not go to R15 is refused where nothing follows (R29). -/
theorem dataOp_refused {f : Alu} {d : RegNum} {sf : Bool} {a : Word} {o : Operand2} {s : State} (hd : d ≠ pcNum)
    (h : 0xFFFFFFFC#32 ≤ s.pc) : dataOp f d sf a o s = .refused .pcWrap := by
  rw [dataOp, writeResult, if_neg hd, State.setReg_of_ne _ _ hd]
  refine advance_refused ?_
  cases sf <;> exact h

/-- Where the fetch delivers a word that is no instruction, the step is refused (R106 to R110). -/
theorem armStep_of_decodeError {run : Instr → State → Result} {s : State} {w : Word} {e : DecodeError}
    (hf : (fetchNext s.beginStep).1 = .word w) (hd : decodeWord w = .error e) : armStep run s = .refused (.decode e) := by
  have fetched : fetchNext s.beginStep = (.word w, (fetchNext s.beginStep).2) := Prod.ext hf rfl
  rw [armStep, fetched]
  simp [hd]

/-- Where the fetched instruction breaks the hazard, the step is refused (R310(c)). -/
theorem armStep_of_breaksHazard {run : Instr → State → Result} {s : State} {w : Word} {i : Instr}
    (hf : (fetchNext s.beginStep).1 = .word w) (hd : decodeWord w = .ok i) (hb : breaksHazard i s = true) :
    armStep run s = .refused .userBankHazard := by
  have fetched : fetchNext s.beginStep = (.word w, (fetchNext s.beginStep).2) := Prod.ext hf rfl
  rw [armStep, fetched]
  simp [hd, hb]

/-- With nothing pending, in THUMB state, a step is `thumbStep` (R8). -/
theorem step_eq_thumbStep {s : State} (hp : pendingException s = none) (ht : s.thumb = true) : step s = thumbStep s := by
  simp [step, hp, ht]

/-- Settles O52: the end of the address space stops `advance`, the other stops are the step's own. -/
theorem namedRefusals : Obligations.NamedRefusals := by
  refine ⟨fun i s hc hpc => ?failed, fun op c sf rn rd o s hruns hrd hpc => ?data, fun op c rn o s hruns hpc => ?test,
    fun s w i hp hT hw hd hh hc hr => ?hazard, fun s hp hT he => ?thumb, fun s w e hp hT hw hd => ?decode⟩
  case failed => rw [exec_of_failed hc, advance_refused hpc]
  case data =>
    obtain ⟨hc, hwf⟩ := hruns
    rw [exec_dataRow, guarded_passed _ hc hwf, dataOp_refused hrd hpc]
  case test =>
    obtain ⟨hc, hwf⟩ := hruns
    rw [exec_testRow, guarded_passed _ hc hwf]
    exact advance_refused hpc
  case hazard =>
    have broken : breaksHazard i s = true := by simpa [breaksHazard, hh, hc] using hr
    exact (step_eq_armStep hp hT).trans
      (armStep_of_breaksHazard (fetchNext_of_nextWord (s := s.beginStep) hw) hd broken)
  case thumb => rw [step_eq_thumbStep hp hT, thumbStep, if_pos he]
  case decode =>
    exact (step_eq_armStep hp hT).trans (armStep_of_decodeError (fetchNext_of_nextWord (s := s.beginStep) hw) hd)

end Sys2Proof.Machine

/-! The register banks, the reset state, the fetch window and the exceptions at a boundary. -/

namespace Sys2Proof.Machine

/-! The register banks (R21, R22): each physical register has one name, the mode that owns it and its number. -/

/-- The mode whose bank holds the register that `x[i]` names in mode `m`: User for a register that is not banked there. -/
def bankOwner (m : Mode) (i : RegNum) : Mode :=
  if i.toNat ≤ 7 then .usr
  else if i.toNat ≤ 12 then (if m = .fiq then .fiq else .usr)
  else if m = .sys then .usr else m

/-- The owner and the number of a physical register, in the order of R22's list. -/
def PReg.name (p : PReg) : Mode × RegNum :=
  if p.val < 15 then (.usr, BitVec.ofNat 4 p.val)
  else if p.val < 22 then (.fiq, BitVec.ofNat 4 (p.val - 7))
  else if p.val < 24 then (.irq, BitVec.ofNat 4 (p.val - 9))
  else if p.val < 26 then (.svc, BitVec.ofNat 4 (p.val - 11))
  else if p.val < 28 then (.abt, BitVec.ofNat 4 (p.val - 13))
  else (.und, BitVec.ofNat 4 (p.val - 15))

/-- A register is the one its name names, and its number is not R15's. -/
theorem bank_name (p : PReg) : (PReg.name p).2 ≠ pcNum ∧ bank (PReg.name p).1 (PReg.name p).2 = p := by
  revert p; decide

/-- The name of the register that `x[i]` names in mode `m`. -/
theorem name_bank (m : Mode) {i : RegNum} (hi : i ≠ pcNum) : PReg.name (bank m i) = (bankOwner m i, i) := by
  cases m <;> revert i <;> decide

/-- Two names are one register exactly when the numbers and the owners agree. -/
theorem bank_eq_bank_iff (m m' : Mode) {i j : RegNum} (hi : i ≠ pcNum) (hj : j ≠ pcNum) :
    bank m i = bank m' j ↔ i = j ∧ bankOwner m i = bankOwner m' j := by
  constructor
  · intro h
    have names := congrArg PReg.name h
    rw [name_bank m hi, name_bank m' hj, Prod.mk.injEq] at names
    exact ⟨names.2, names.1⟩
  · rintro ⟨rfl, howner⟩
    have named (m : Mode) : bank (bankOwner m i) i = bank m i := by
      have h := (bank_name (bank m i)).2
      rwa [name_bank m hi] at h
    rw [← named m, ← named m', howner]

/-- When two modes own the same register of a number: R0 to R7 have one copy, R8 to R12 two, R13 and R14 one for each
exception mode and one for User and System together (R22). -/
theorem bankOwner_eq_iff (m m' : Mode) (i : RegNum) :
    bankOwner m i = bankOwner m' i ↔
      i.toNat ≤ 7 ∨ (i.toNat ≤ 12 ∧ (m = .fiq ↔ m' = .fiq)) ∨
        m = m' ∨ ((m = .usr ∨ m = .sys) ∧ (m' = .usr ∨ m' = .sys)) := by
  unfold bankOwner
  by_cases h7 : i.toNat ≤ 7
  · simp [h7]
  · by_cases h12 : i.toNat ≤ 12
    · simp only [h7, h12, if_false, if_true, false_or, true_and]
      cases m <;> cases m' <;> decide
    · simp only [h7, h12, if_false, false_or, false_and]
      cases m <;> cases m' <;> decide

/-- Settles O58: every register has a name, and names are told apart by their number and the owner of the bank. -/
theorem bankedRegisters : Obligations.BankedRegisters := by
  refine ⟨fun p => ⟨_, _, bank_name p⟩, fun m m' i j hi hj => ?_⟩
  rw [bank_eq_bank_iff m m' hi hj]
  refine and_congr_right fun hij => ?_
  subst hij
  exact bankOwner_eq_iff m m' i

/-! The state after reset (R45, R301, R302). -/

/-- Settles O53: the fields of the reset state, read off its CPSR. -/
theorem resetState : Obligations.ResetState :=
  ⟨rfl, by decide, by decide, by decide, by decide, by decide, rfl⟩

/-- Settles O54: memory lists nothing, PC is 0, and CPSR holds the Supervisor mode's number and no reserved bit. -/
theorem resetHasInvariant : Obligations.ResetHasInvariant where
  memory := rfl
  alignedArm := fun _ => by decide
  alignedThumb := fun _ => by decide
  mode := by decide
  reserved := by decide
  reservedSpsr := by decide

/-! The fetch window (R40, R62, R73). -/

/-- A fetch from memory gives the word there and changes nothing (R62). -/
theorem fetchAt_memory {s : State} {a : Word} (he : s.accessExists a .word = true) (hd : s.accessDevice a .word = false) :
    fetchAt s a = (.word (s.mem.readSize a .word), s) := by
  simp [fetchAt, memRead_memory he hd]

/-- With two words fetched ahead, the first is delivered and the second moves up (R73). -/
theorem fetchNext_of_pipe {s : State} {p : Pipeline} (h : s.pipe = some p) :
    (fetchNext s).1 = p.first ∧ ∃ f, (fetchNext s).2.pipe = some ⟨p.second, f⟩ := by
  unfold fetchNext
  rw [h]
  exact ⟨rfl, _, rfl⟩

/-- After a jump the words at PC, PC + 4 and PC + 8 are fetched from memory (R40(a)). -/
theorem fetchNext_of_jump {s : State} (h : s.pipe = none)
    (h0 : fetchAt s s.pc = (.word (s.mem.readSize s.pc .word), s))
    (h4 : fetchAt s (s.pc + 4#32) = (.word (s.mem.readSize (s.pc + 4#32) .word), s))
    (h8 : fetchAt s (s.pc + 8#32) = (.word (s.mem.readSize (s.pc + 8#32) .word), s)) :
    fetchNext s = (.word (s.mem.readSize s.pc .word),
      s.setPipe (some ⟨.word (s.mem.readSize (s.pc + 4#32) .word), .word (s.mem.readSize (s.pc + 8#32) .word)⟩)) := by
  unfold fetchNext
  rw [h]
  simp only [h0, h4, h8]

/-- Settles O48: the fetch reads what is fetched ahead, whatever memory holds, and memory only after a jump. -/
theorem fetchWindow : Obligations.FetchWindow := by
  refine ⟨fun s p m hp => fetchNext_of_pipe (s := s.setMem m) hp, fun s hp hmem => ?_⟩
  have fetched (k : Fin 3) := fetchAt_memory (hmem k).1 (hmem k).2
  have h0 := fetched 0
  rw [show s.pc + BitVec.ofNat 32 (4 * (0 : Fin 3)) = s.pc by simp] at h0
  exact fetchNext_of_jump hp h0 (fetched 1) (fetched 2)

/-! Exceptions at the boundary (R260, R265, R266, R270). -/

/-- Taking an exception is the entry of R256, with nothing written beside the link register. -/
theorem entered_takeException (s : State) (e : Exc) : Entered s (s.takeException e) e [] [] := by
  refine ⟨?link, ?saved, ?otherSpsr, ?mode, ?thumb, ?irq, ?fiq, ?flags, ?reserved, rfl, rfl, ?regs, ?bytes, ?world⟩
  case link => rw [State.takeException_preg, if_pos rfl]
  case saved => intro k hk; rw [State.takeException_spsr, if_pos hk]
  case otherSpsr =>
    intro k hk
    rw [State.takeException_spsr, if_neg fun h => hk (by simp [spsrsOf, h])]
  case mode => simp
  case thumb => simp
  case irq => simp
  case fiq => cases e <;> simp [Exc.newF]
  case flags => exact flags_ext (by simp) (by simp) (by simp) (by simp)
  case reserved => simp
  case regs =>
    intro p hp
    rw [State.takeException_preg, if_neg fun h => hp (by simp [h])]
  case bytes => intro a _; simp
  case world => exact ⟨by simp, by simp⟩

/-- A pending exception other than Reset is entered at the boundary, and no device is touched (R8). -/
theorem step_of_pending {s : State} {e : Exc} (h : pendingException s = some e) (he : e ≠ .reset) :
    ∃ t, step s = .next t ∧ Entered s.beginStep t e [] [] ∧ t.io = s.io := by
  refine ⟨s.beginStep.takeException e, ?_, entered_takeException _ e, by simp⟩
  unfold step
  rw [h]
  cases e
  case reset => exact absurd rfl he
  all_goals rfl

/-- Settles O51: the highest priority comes first, and a masked request is no exception. -/
theorem boundaryPriority : Obligations.BoundaryPriority := by
  intro s
  refine ⟨fun hr => ?reset, fun hr hf hF => ?fiq, fun hr hf hi hI => ?irq, fun hr hf hi => ?quiet⟩
  case reset =>
    have hstep : step s = .next s.beginStep.takeReset := by simp [step, pendingException, hr]
    refine ⟨_, hstep, ?_⟩
    simp [State.takeReset_cpsr, Mode.bits]
  case fiq => exact step_of_pending (by simp [pendingException, hr, hf, hF]) nofun
  case irq =>
    have masked : (s.input.fiq && !psrF s.cpsr) = false := by simpa using hf
    exact step_of_pending (by simp [pendingException, hr, masked, hi, hI]) nofun
  case quiet =>
    have maskedFiq : (s.input.fiq && !psrF s.cpsr) = false := by simpa using hf
    have maskedIrq : (s.input.irq && !psrI s.cpsr) = false := by simpa using hi
    simp [pendingException, hr, maskedFiq, maskedIrq]

end Sys2Proof.Machine

/-! Memory: the bytes it reads back, its canonical form, the refused halfwords and the fetches that abort. -/

namespace Sys2Proof.Machine

/-! Memory reads back what was written, in parts of any width (R60, R61, R63). -/

/-- The addresses of an access count on through a displacement (R66). -/
theorem byteAddr_add (a : Word) (j k : Nat) : byteAddr (a + BitVec.ofNat 32 j) k = byteAddr a (j + k) := by
  rw [byteAddr, byteAddr, BitVec.add_assoc, ← BitVec.ofNat_add]

/-- A read of bytes that are those of `v` from byte `j` on gives that field of `v` (R60, R61). -/
theorem Memory.readSize_of_bytes {m : Memory} {a v : Word} {j : Nat} (n : AccessSize)
    (h : ∀ k < n.bytes, m.read (byteAddr a k) = byteOf v (j + k)) :
    m.readSize a n = (field v (8 * j) (8 * n.bytes)).setWidth 32 := by
  cases n with
  | byte => rw [Memory.readSize, h 0 (by decide)]; rfl
  | half =>
    have halves : byteOf v (j + 1) ++ byteOf v (j + 0) = field v (8 * j) 16 :=
      BitVec.extractLsb'_append_extractLsb'_eq_extractLsb' (by omega)
    rw [Memory.readSize, h 0 (by decide), h 1 (by decide), halves]; rfl
  | word =>
    have upper : byteOf v (j + 3) ++ byteOf v (j + 2) = field v (8 * (j + 2)) 16 :=
      BitVec.extractLsb'_append_extractLsb'_eq_extractLsb' (by omega)
    have upper3 : field v (8 * (j + 2)) 16 ++ byteOf v (j + 1) = field v (8 * (j + 1)) 24 :=
      BitVec.extractLsb'_append_extractLsb'_eq_extractLsb' (by omega)
    have all4 : field v (8 * (j + 1)) 24 ++ byteOf v (j + 0) = field v (8 * j) 32 :=
      BitVec.extractLsb'_append_extractLsb'_eq_extractLsb' (by omega)
    rw [Memory.readSize, h 0 (by decide), h 1 (by decide), h 2 (by decide), h 3 (by decide), wordOfBytes, upper, upper3,
      all4]
    exact (BitVec.setWidth_eq _).symm

/-- A read that lies within the bytes of a write gives that field of the value written (R60, R61). -/
theorem Memory.readSize_writeSize_within (m : Memory) (a v : Word) (j : Nat) {n stored : AccessSize}
    (h : j + n.bytes ≤ stored.bytes) :
    (m.writeSize a v stored).readSize (a + BitVec.ofNat 32 j) n = (field v (8 * j) (8 * n.bytes)).setWidth 32 := by
  refine Memory.readSize_of_bytes n fun k hk => ?_
  rw [byteAddr_add]
  exact Memory.read_writeSize_same m a v stored (j + k) (by omega)

/-- The low bytes of a value that an access carries, as a field. -/
theorem and_sizeMask (v : Word) (n : AccessSize) : v &&& sizeMask n = (field v 0 (8 * n.bytes)).setWidth 32 := by
  have maskBit : ∀ i < 32, (sizeMask n).getLsbD i = decide (i < 8 * n.bytes) := by cases n <;> decide
  refine BitVec.eq_of_getLsbD_eq fun i hi => ?_
  rw [BitVec.getLsbD_and, maskBit i hi, BitVec.getLsbD_setWidth, getLsbD_field]
  simp [hi, bitAt, Bool.and_comm]

/-- Settles O59: each of the three reads lies within the bytes written, and the other bytes are not written. -/
theorem memoryReadsBack : Obligations.MemoryReadsBack := by
  intro m a v
  refine ⟨fun n => ?same, fun k hk => ?byte, fun h hh => ?half, fun n b hb => ?other⟩
  case same => simpa [and_sizeMask] using Memory.readSize_writeSize_within m a v 0 (n := n) (stored := n) (by omega)
  case byte => exact Memory.readSize_writeSize_within m a v k (n := .byte) (stored := .word) hk
  case half =>
    have within : 2 * h + AccessSize.half.bytes ≤ AccessSize.word.bytes := by simp only [AccessSize.bytes]; omega
    have read := Memory.readSize_writeSize_within m a v (2 * h) within
    rwa [show 8 * (2 * h) = 16 * h by omega] at read
  case other =>
    exact Memory.read_writeSize_other m a v n b fun k hk hbk => hb (mem_accessAddrs.2 ⟨k, hk, hbk⟩)

/-! The canonical form has one list for each content (log 4). -/

/-- An address below every listed one is unlisted. -/
theorem Memory.read_of_below {m : Memory} {a : Nat} (h : ∀ c ∈ m, a < c.1) : Memory.read m a = Memory.unlisted := by
  induction m with
  | nil => rfl
  | cons c m ih =>
    obtain ⟨x, b⟩ := c
    obtain ⟨hx, hm⟩ := List.forall_mem_cons.1 h
    rw [Memory.read, if_neg hx.ne', ih hm]

/-- The first entry of a canonical memory tells it from a memory that lists larger addresses alone. -/
theorem Memory.read_cons_ne_of_below {x : Nat} {b : Byte} {m m' : Memory} (hb : b ≠ Memory.unlisted)
    (h : ∀ c ∈ m', x < c.1) : Memory.read ((x, b) :: m) x ≠ Memory.read m' x := by
  rwa [Memory.read_of_below h, Memory.read, if_pos rfl]

/-- Memories that read alike with the same first entry, below all others, read alike after it. -/
theorem Memory.read_tail_eq {x : Nat} {b b' : Byte} {m m' : Memory} (hm : ∀ c ∈ m, x < c.1) (hm' : ∀ c ∈ m', x < c.1)
    (h : ∀ a, Memory.read ((x, b) :: m) a = Memory.read ((x, b') :: m') a) (a : Nat) :
    Memory.read m a = Memory.read m' a := by
  by_cases ha : x = a
  · subst ha; rw [Memory.read_of_below hm, Memory.read_of_below hm']
  · simpa [Memory.read, ha] using h a

/-- Settles O60, by induction on the list: the first entries stand at the same address, since the smaller one would be read from
one memory alone. -/
theorem canonicalMemoriesAreEqual : Obligations.CanonicalMemoriesAreEqual := by
  intro m
  induction m with
  | nil =>
    intro m' _ wf' alike
    cases m' with
    | nil => rfl
    | cons c' m' =>
      obtain ⟨y, b'⟩ := c'
      obtain ⟨hb', -, -, -⟩ := (Memory.wf_cons y b' m').1 wf'
      exact absurd (alike y).symm (Memory.read_cons_ne_of_below hb' (by simp))
  | cons c m ih =>
    intro m' wf wf' alike
    obtain ⟨x, b⟩ := c
    obtain ⟨hb, -, above, wfTail⟩ := (Memory.wf_cons x b m).1 wf
    cases m' with
    | nil => exact absurd (alike x) (Memory.read_cons_ne_of_below hb (by simp))
    | cons c' m' =>
      obtain ⟨y, b'⟩ := c'
      obtain ⟨hb', -, above', wfTail'⟩ := (Memory.wf_cons y b' m').1 wf'
      rcases lt_trichotomy x y with hxy | rfl | hyx
      · have below : ∀ c ∈ (y, b') :: m', x < c.1 := List.forall_mem_cons.2 ⟨hxy, fun c hc => hxy.trans (above' c hc)⟩
        exact absurd (alike x) (Memory.read_cons_ne_of_below hb below)
      · have heads : b = b' := by simpa [Memory.read] using alike x
        rw [heads, ih m' wfTail wfTail' (Memory.read_tail_eq above above' alike)]
      · have below : ∀ c ∈ (x, b) :: m, y < c.1 := List.forall_mem_cons.2 ⟨hyx, fun c hc => hyx.trans (above c hc)⟩
        exact absurd (alike y).symm (Memory.read_cons_ne_of_below hb' below)

/-! Halfwords at an odd address (R64, R189 to R191). -/

section halfwordRows
variable (c : Cond) (ix : HsIndex) (u : Bool) (rn rd : RegNum) (o : HsOffset) (s : State)

/-- A row of LDRH is a load of a halfword at an even address (R189). -/
theorem exec_ldrhRow : exec (ldrhRow c ix u rn rd o) s = guarded (ldrhRow c ix u rn rd o) s
    (evenOnly (hsAddressing ix u rn o s) (loadOp loadHalf rn rd (hsAddressing ix u rn o s) s)) := by
  cases o <;> rfl

/-- A row of LDRSH is a load of a signed halfword at an even address (R191). -/
theorem exec_ldrshRow : exec (ldrshRow c ix u rn rd o) s = guarded (ldrshRow c ix u rn rd o) s
    (evenOnly (hsAddressing ix u rn o s) (loadOp loadSignedHalf rn rd (hsAddressing ix u rn o s) s)) := by
  cases o <;> rfl

/-- A row of STRH is a store of a halfword at an even address (R190). -/
theorem exec_strhRow : exec (strhRow c ix u rn rd o) s = guarded (strhRow c ix u rn rd o) s
    (evenOnly (hsAddressing ix u rn o s) (storeOp storeHalf rn (s.reg rd) (hsAddressing ix u rn o s) s)) := by
  cases o <;> rfl

end halfwordRows

/-- At an odd address a halfword access is refused, whatever it would do (R64). -/
theorem evenOnly_odd {a : Addressing} (e : Result) (h : bitAt a.addr 0 = true) : evenOnly a e = .refused .oddHalfword :=
  if_pos h

/-- Settles O24: each of the three instructions is an access at an even address alone. -/
theorem oddHalfwordRefused : Obligations.OddHalfwordRefused := by
  rintro c ix u rn rd o s i row ⟨hc, hwf⟩ odd
  rcases row with rfl | rfl | rfl
  · rw [exec_ldrhRow, guarded_passed _ hc hwf, evenOnly_odd _ odd]
  · rw [exec_ldrshRow, guarded_passed _ hc hwf, evenOnly_odd _ odd]
  · rw [exec_strhRow, guarded_passed _ hc hwf, evenOnly_odd _ odd]

/-! Fetches that abort (R62, R71, R264). -/

/-- A fetch from an address that does not exist aborts (R71). -/
theorem fetchAt_of_absent {s : State} {a : Word} (h : s.accessExists a .word = false) : fetchAt s a = (.aborted, s) := by
  simp [fetchAt, memRead_absent h]

/-- The fetch delivers the mark of an abort: the one fetched ahead, or that of an absent PC (R62, R264). -/
theorem fetchNext_aborted {s : State}
    (h : (∃ f, s.pipe = some ⟨.aborted, f⟩) ∨ (s.pipe = none ∧ s.accessExists s.pc .word = false)) :
    (fetchNext s).1 = .aborted := by
  rcases h with ⟨f, ahead⟩ | ⟨jumped, absent⟩
  · exact (fetchNext_of_pipe ahead).1
  · simp [fetchNext, jumped, fetchAt_of_absent absent]

/-- Where the fetch delivers the mark of an abort, the step enters Prefetch Abort (R264). -/
theorem armStep_of_aborted {run : Instr → State → Result} {s : State} (h : (fetchNext s.beginStep).1 = .aborted) :
    armStep run s = .next ((fetchNext s.beginStep).2.takeException .prefetchAbort) := by
  have fetched : fetchNext s.beginStep = (.aborted, (fetchNext s.beginStep).2) := Prod.ext h rfl
  rw [armStep, fetched]

/-- An exception entry from a state with the same core and inputs is one from the state itself. -/
theorem Entered.of_sameCore {s u t : State} {e : Exc} {regs : List PReg} {bytes : List Nat} (core : SameCore s u)
    (inputs : u.inputs = s.inputs) (h : Entered u t e regs bytes) : Entered s t e regs bytes := by
  obtain ⟨hregs, hpc, hcpsr, hspsr, hmem, -, hplat⟩ := core
  simpa only [Entered, SameSpsr, SameFlags, SameRegs, SameBytes, SameWorld, State.thumb, State.preg, hregs, hpc, hcpsr,
    hspsr, hmem, hplat, inputs] using h

/-- Settles O50: the fetch delivers the mark of an abort, and leaves what the entry saves as the step began. -/
theorem prefetchAborts : Obligations.PrefetchAborts := by
  intro s hp ht aborts
  have fetched : (fetchNext s.beginStep).1 = .aborted := fetchNext_aborted (s := s.beginStep) aborts
  obtain ⟨_, _, _, _, _, _, hinputs, _, _⟩ := fetchNext_state s.beginStep
  exact ⟨_, (step_eq_armStep hp ht).trans (armStep_of_aborted fetched),
    (entered_takeException _ .prefetchAbort).of_sameCore (sameCore_fetchNext_beginStep s) hinputs⟩

end Sys2Proof.Machine

/-! The other round trip, and the words refused by name: what the procedure of R92 answers to each word. -/

namespace Sys2Proof

/-! The bits of a field whose value is given. -/

/-- A field has a value when each of its bits has the value's. -/
theorem field_eq_ofNat_iff (w : Word) (lo n x : Nat) :
    field w lo n = BitVec.ofNat n x ↔ ∀ j < n, bitAt w (lo + j) = x.testBit j := by
  rw [BitVec.eq_of_getLsbD_eq_iff]
  refine forall₂_congr fun j hj => ?_
  simp only [getLsbD_field, BitVec.getLsbD_ofNat, hj, decide_true, Bool.true_and]

/-- The lowest bit of the field, and the rest of it: with this `simp` turns a field of known value into its bits. -/
theorem field_succ_eq_ofNat (w : Word) (lo n x : Nat) : field w lo (n + 1) = BitVec.ofNat (n + 1) x ↔
    bitAt w lo = decide (x % 2 = 1) ∧ field w (lo + 1) n = BitVec.ofNat n (x / 2) := by
  simp only [field_eq_ofNat_iff, Nat.forall_lt_succ_left, Nat.testBit_succ, Nat.testBit_zero, Nat.add_assoc,
    Nat.add_comm 1, Nat.add_zero]

@[simp] theorem field_no_bits (w : Word) (lo : Nat) (v : BitVec 0) : field w lo 0 = v ↔ True :=
  iff_true_intro (Subsingleton.elim _ _)

/-- The value a `match` on a field compares with, as the field itself. -/
theorem field_eq_of_toNat {w : Word} {lo n x : Nat} (h : (field w lo n).toNat = x) : field w lo n = BitVec.ofNat n x := by
  rw [← h, BitVec.ofNat_toNat, BitVec.setWidth_eq]

/-- Bits 27:25, the class of a word (R92). -/
theorem class_bits {w : Word} {x : Nat} (h : (field w 25 3).toNat = x) :
    bitAt w 25 = decide (x % 2 = 1) ∧ bitAt w 26 = decide (x / 2 % 2 = 1) ∧ bitAt w 27 = decide (x / 2 / 2 % 2 = 1) := by
  simpa only [field_succ_eq_ofNat, field_no_bits, and_true] using field_eq_of_toNat h

/-- Bits 24:21, the opcode of a data-processing word (R93). -/
theorem opcode_bits {w : Word} {x : Nat} (h : (field w 21 4).toNat = x) :
    bitAt w 21 = decide (x % 2 = 1) ∧ bitAt w 22 = decide (x / 2 % 2 = 1) ∧ bitAt w 23 = decide (x / 2 / 2 % 2 = 1) ∧
      bitAt w 24 = decide (x / 2 / 2 / 2 % 2 = 1) := by
  simpa only [field_succ_eq_ofNat, field_no_bits, and_true] using field_eq_of_toNat h

/-! A word written field by field, compared with another from bit 0 up. -/

/-- `p` is the part of `w` from bit `k` up, as far as the fields still to be written below it leave room. -/
def Spells (p w : Word) (k : Nat) : Prop := ∀ j, k + j < 32 → bitAt p j = bitAt w (k + j)

/-- With no field still to be written, it is the whole word. -/
theorem spells_zero (p w : Word) : Spells p w 0 ↔ p = w := by
  constructor
  · intro spelled
    exact BitVec.eq_of_getLsbD_eq fun j hj => by simpa [bitAt] using spelled j (by omega)
  · rintro rfl j _
    rw [Nat.zero_add]

/-- With all 32 bits still to be written, anything will do. -/
@[simp] theorem spells_all (p w : Word) : Spells p w 32 := fun _ h => by omega

/-- The field just pushed is the field of `w` there, and what was written before goes above it. -/
@[simp] theorem spells_push {n : Nat} (p w : Word) (v : BitVec n) {k : Nat} (h : k + n ≤ 32) :
    Spells (p.push v) w k ↔ field w k n = v ∧ Spells p w (k + n) := by
  constructor
  · intro spelled
    refine ⟨BitVec.eq_of_getLsbD_eq fun j hj => ?_, fun j hj => ?_⟩
    · rw [← bitAt_push_low p v hj (by omega), spelled j (by omega), getLsbD_field]
      simp [hj]
    · have above := spelled (n + j) (by omega)
      rwa [bitAt_push_high p v (by omega) (by omega), Nat.add_sub_cancel_left, ← Nat.add_assoc] at above
  · rintro ⟨rfl, spelled⟩ j hj
    by_cases low : j < n
    · rw [bitAt_push_low _ _ low (by omega), getLsbD_field]
      simp [low]
    · rw [bitAt_push_high _ _ (by omega) (by omega), spelled (j - n) (by omega), Nat.add_assoc,
        Nat.add_sub_cancel' (by omega)]

@[simp] theorem spells_pushBit (p w : Word) (b : Bool) {k : Nat} (h : k + 1 ≤ 32) :
    Spells (p.pushBit b) w k ↔ bitAt w k = b ∧ Spells p w (k + 1) := by
  rw [Word.pushBit, spells_push p w _ h]
  refine and_congr_left fun _ => ?_
  cases b <;> simp [field_succ_eq_ofNat]

/-! What the procedure of R92 answers once the condition is read. -/

/-- The answer is the instruction whose word is `w`, or a refusal other than "never". -/
def ReadsWord (w : Word) : Except DecodeError Instr → Prop
  | .ok i => encode i = w
  | .error e => e ≠ .condNever

@[simp] theorem readsWord_ok (w : Word) (i : Instr) : ReadsWord w (.ok i) ↔ Spells (encode i) w 0 :=
  (spells_zero _ _).symm

@[simp] theorem readsWord_error (w : Word) (e : DecodeError) : ReadsWord w (.error e) ↔ e ≠ .condNever := Iff.rfl

/-- A field that should be zero is known to be zero where the instruction is answered (R110). -/
@[simp] theorem readsWord_requireZero {n : Nat} (w : Word) (b : BitVec n) (i : Instr) :
    ReadsWord w (requireZero b i) ↔ (b = 0 → Spells (encode i) w 0) := by
  unfold requireZero
  split <;> simp_all

section formats

variable {c : Cond} {w : Word} (cond : c.bits = field w 28 4)
include cond

/-- Format DP, immediate second operand; `tests` says that the four tests have S set, or the word is MSR's (R92, R93). -/
theorem readsWord_decodeDpImm (cls : (field w 25 3).toNat = 1)
    (tests : bitAt w 23 = false → bitAt w 24 = true → bitAt w 20 = true) : ReadsWord w (decodeDpImm c w) := by
  have opLt := (field w 21 4).isLt
  interval_cases op : (field w 21 4).toNat <;> simp only [decodeDpImm, op] <;>
    simp [encode, field_succ_eq_ofNat, cond, class_bits cls, opcode_bits op, tests]

/-- Format DP, register shifted by an immediate (R93). -/
theorem readsWord_decodeDpShImm (cls : (field w 25 3).toNat = 0) (b4 : bitAt w 4 = false)
    (tests : bitAt w 23 = false → bitAt w 24 = true → bitAt w 20 = true) : ReadsWord w (decodeDpShImm c w) := by
  have opLt := (field w 21 4).isLt
  interval_cases op : (field w 21 4).toNat <;> simp only [decodeDpShImm, op] <;>
    simp [encode, field_succ_eq_ofNat, cond, class_bits cls, opcode_bits op, tests, b4]

/-- Format DP, register shifted by a register (R93). -/
theorem readsWord_decodeDpShReg (cls : (field w 25 3).toNat = 0) (b7 : bitAt w 7 = false) (b4 : bitAt w 4 = true)
    (tests : bitAt w 23 = false → bitAt w 24 = true → bitAt w 20 = true) : ReadsWord w (decodeDpShReg c w) := by
  have opLt := (field w 21 4).isLt
  interval_cases op : (field w 21 4).toNat <;> simp only [decodeDpShReg, op] <;>
    simp [encode, field_succ_eq_ofNat, cond, class_bits cls, opcode_bits op, tests, b7, b4]

/-- Formats MUL, MULL and SWP (R94, R95). -/
theorem readsWord_decodeMulSwp (cls : (field w 25 3).toNat = 0) (b7 : bitAt w 7 = true) (b4 : bitAt w 4 = true)
    (sh : field w 5 2 = 0b00#2) : ReadsWord w (decodeMulSwp c w) := by
  simp only [field_succ_eq_ofNat] at sh
  unfold decodeMulSwp
  split_ifs with mul accumulate long swap byte
  · simp only [field_succ_eq_ofNat] at mul
    simp [encode, field_succ_eq_ofNat, cond, class_bits cls, sh, b7, b4, mul, accumulate]
  · simp only [field_succ_eq_ofNat] at mul
    simp [encode, field_succ_eq_ofNat, cond, class_bits cls, sh, b7, b4, mul, accumulate]
  · simp only [field_succ_eq_ofNat] at long
    have opLt := (field w 21 2).isLt
    interval_cases op : (field w 21 2).toNat <;> have opField := field_eq_of_toNat op <;>
      simp only [field_succ_eq_ofNat] at opField <;>
      simp [encode, field_succ_eq_ofNat, cond, class_bits cls, sh, b7, b4, long, opField]
  · simp only [field_succ_eq_ofNat] at swap
    simp [encode, field_succ_eq_ofNat, cond, class_bits cls, sh, b7, b4, swap, byte]
  · simp only [field_succ_eq_ofNat] at swap
    simp [encode, field_succ_eq_ofNat, cond, class_bits cls, sh, b7, b4, swap, byte]
  · simp

/-- Format HS (R96, R107). -/
theorem readsWord_decodeHs (cls : (field w 25 3).toNat = 0) (b7 : bitAt w 7 = true) (b4 : bitAt w 4 = true)
    (sh : field w 5 2 ≠ 0b00#2) : ReadsWord w (decodeHs c w) := by
  have shLt := (field w 5 2).isLt
  interval_cases kind : (field w 5 2).toNat <;> have kindField := field_eq_of_toNat kind
  · exact absurd kindField sh
  all_goals
    simp only [field_succ_eq_ofNat] at kindField
    cases imm : bitAt w 22 <;> cases load : bitAt w 20 <;>
    simp +contextual [decodeHs, kind, encode, field_succ_eq_ofNat, cond, class_bits cls, kindField, b7, b4, imm, load]

/-- The miscellaneous space of class 000 (R95, R108). -/
theorem readsWord_decodeMisc (cls : (field w 25 3).toNat = 0) (op : field w 23 2 = 0b10#2) (b20 : bitAt w 20 = false) :
    ReadsWord w (decodeMisc c w) := by
  unfold decodeMisc
  simp only [field_succ_eq_ofNat] at op
  split_ifs with bx blx mrs msr
  · simp only [field_succ_eq_ofNat] at bx
    simp [encode, field_succ_eq_ofNat, cond, class_bits cls, op, b20, bx]
  · simp
  · simp only [field_succ_eq_ofNat] at mrs
    simp [encode, field_succ_eq_ofNat, cond, class_bits cls, op, b20, mrs]
  · simp only [field_succ_eq_ofNat] at msr
    simp [encode, field_succ_eq_ofNat, cond, class_bits cls, op, b20, msr]
  · simp

/-- Class 000 (R92). -/
theorem readsWord_decode000 (cls : (field w 25 3).toNat = 0) : ReadsWord w (decode000 c w) := by
  unfold decode000
  split_ifs with extension sh misc b4
  · obtain ⟨b7, b4⟩ := extension
    exact readsWord_decodeMulSwp cond cls b7 b4 sh
  · obtain ⟨b7, b4⟩ := extension
    exact readsWord_decodeHs cond cls b7 b4 sh
  · obtain ⟨op, b20⟩ := misc
    exact readsWord_decodeMisc cond cls op b20
  · exact readsWord_decodeDpShReg cond cls (by simpa [b4] using extension) b4
      (by simpa [field_succ_eq_ofNat] using misc)
  · exact readsWord_decodeDpShImm cond cls (by simpa using b4) (by simpa [field_succ_eq_ofNat] using misc)

/-- Class 001 (R92). -/
theorem readsWord_decode001 (cls : (field w 25 3).toNat = 1) : ReadsWord w (decode001 c w) := by
  unfold decode001
  split_ifs with misc msr
  · simp only [field_succ_eq_ofNat] at misc msr
    simp [encode, field_succ_eq_ofNat, cond, class_bits cls, misc, msr]
  · simp
  · exact readsWord_decodeDpImm cond cls (by simpa [field_succ_eq_ofNat] using misc)

/-- Class 010: format LS with an immediate offset (R96, R193). -/
theorem readsWord_decodeLsImm (cls : (field w 25 3).toNat = 2) : ReadsWord w (decodeLsImm c w) := by
  simp only [decodeLsImm]
  split <;> simp [encode, field_succ_eq_ofNat, class_bits cls, *]

/-- Class 011 with bit 4 clear: format LS with a register offset (R96, R193). -/
theorem readsWord_decodeLsReg (cls : (field w 25 3).toNat = 3) (b4 : bitAt w 4 = false) :
    ReadsWord w (decodeLsReg c w) := by
  simp only [decodeLsReg]
  split <;> simp [encode, field_succ_eq_ofNat, class_bits cls, *]

/-- Class 100: format BLK (R96). -/
theorem readsWord_decodeBlk (cls : (field w 25 3).toNat = 4) : ReadsWord w (.ok (decodeBlk c w)) := by
  unfold decodeBlk
  split <;> simp [encode, field_succ_eq_ofNat, class_bits cls, *]

/-- Class 110: the coprocessor transfers (R233). -/
theorem readsWord_decodeCoTransfer (cls : (field w 25 3).toNat = 6) : ReadsWord w (.ok (decodeCoTransfer c w)) := by
  unfold decodeCoTransfer
  split <;> simp [encode, field_succ_eq_ofNat, class_bits cls, *]

/-- Class 111: SWI, and the coprocessor operations (R97, R233). -/
theorem readsWord_decode111 (cls : (field w 25 3).toNat = 7) : ReadsWord w (.ok (decode111 c w)) := by
  unfold decode111
  split_ifs with swi operation load
  · simp [encode, field_succ_eq_ofNat, cond, class_bits cls, swi]
  · simp [encode, field_succ_eq_ofNat, cond, class_bits cls, swi, operation]
  · simp [encode, field_succ_eq_ofNat, cond, class_bits cls, swi, operation, load]
  · simp [encode, field_succ_eq_ofNat, cond, class_bits cls, swi, operation, load]

/-- The eight classes (R92). -/
theorem readsWord_decodeClass : ReadsWord w (decodeClass c w) := by
  have clsLt := (field w 25 3).isLt
  unfold decodeClass
  interval_cases cls : (field w 25 3).toNat
  · exact readsWord_decode000 cond cls
  · exact readsWord_decode001 cond cls
  · exact readsWord_decodeLsImm cond cls
  · cases b4 : bitAt w 4 with
    | false => exact readsWord_decodeLsReg cond cls b4
    | true => simp [encode, field_succ_eq_ofNat, cond, class_bits cls, b4]
  · exact readsWord_decodeBlk cond cls
  · cases link : bitAt w 24 <;> simp [encode, field_succ_eq_ofNat, cond, class_bits cls, link]
  · exact readsWord_decodeCoTransfer cond cls
  · exact readsWord_decode111 cond cls

end formats

/-! The two round trips together. -/

/-- A code is no condition's exactly when it is 1111 (R109, R121). -/
theorem Cond.ofBits_eq_none_iff (b : BitVec 4) : Cond.ofBits b = none ↔ b = 0b1111#4 := by revert b; decide

/-- Bits 31:28 are 1111 and the word is refused for it, or the rest of it is read (R92, R109). -/
theorem decodeWord_cases (w : Word) :
    (field w 28 4 = 0b1111#4 ∧ decodeWord w = .error .condNever) ∨
    (field w 28 4 ≠ 0b1111#4 ∧ ∃ c : Cond, c.bits = field w 28 4 ∧ decodeWord w = decodeClass c w) := by
  unfold decodeWord
  split
  next never => exact .inl ⟨(Cond.ofBits_eq_none_iff _).1 never, rfl⟩
  next c read =>
    refine .inr ⟨fun never => ?_, c, Cond.bits_of_ofBits read, rfl⟩
    rw [(Cond.ofBits_eq_none_iff _).2 never] at read
    cases read

/-- The encoder inverts the decoder (R92, R100, R110). -/
theorem encode_of_decodeWord {w : Word} {i : Instr} (h : decodeWord w = .ok i) : encode i = w := by
  obtain ⟨-, never⟩ | ⟨-, c, cond, read⟩ := decodeWord_cases w
  · rw [h] at never
    cases never
  · have reads := readsWord_decodeClass cond
    rwa [← read, h] at reads

/-- A word decodes to an instruction exactly when it is the instruction's word. -/
theorem decodeWord_eq_ok_iff (w : Word) (i : Instr) : decodeWord w = .ok i ↔ encode i = w :=
  ⟨encode_of_decodeWord, fun h => h ▸ decodeWord_encode i⟩

/-- Settles O1: the four bytes of a word are the word, and the decoder reads it back. -/
theorem decodingInvertsEncoding : Obligations.DecodingInvertsEncoding := by
  intro i
  rw [decodeBytes, Machine.wordOfBytes_byteOf, decodeWord_encode]

/-- Settles O2: each arm of R92 has tested or read every bit of the word. -/
theorem encodingInvertsDecoding : Obligations.EncodingInvertsDecoding := fun _ _ => encode_of_decodeWord

/-- Settles O3: each word is the word of its instruction. -/
theorem printedWordsDecode : Obligations.PrintedWordsDecode := by
  simp only [Obligations.PrintedWordsDecode, decodeWord_eq_ok_iff]
  decide

/-! Words refused by name (R107 to R109). -/

/-- A word is refused as "never" exactly when bits 31:28 are 1111 (R109). -/
theorem decodeWord_eq_condNever_iff (w : Word) : decodeWord w = .error .condNever ↔ field w 28 4 = 0b1111#4 := by
  obtain ⟨never, refused⟩ | ⟨allowed, c, cond, read⟩ := decodeWord_cases w
  · exact iff_of_true refused never
  · refine iff_of_false (fun refused => ?_) allowed
    have reads := readsWord_decodeClass cond
    rw [← read, refused] at reads
    exact reads rfl

/-- A word with a condition in class 000 is read by that class's arm (R92). -/
theorem decodeWord_class000 {w : Word} (allowed : field w 28 4 ≠ 0b1111#4) (cls : field w 25 3 = 0b000#3) :
    ∃ c, decodeWord w = decode000 c w := by
  obtain ⟨never, -⟩ | ⟨-, c, -, read⟩ := decodeWord_cases w
  · exact absurd never allowed
  · exact ⟨c, by rw [read, decodeClass, cls]; rfl⟩

/-- In format HS a store that is not of an unsigned halfword is refused (R107). -/
theorem decodeHs_signedStore {c : Cond} {w : Word} (b20 : bitAt w 20 = false) (b6 : bitAt w 6 = true) :
    decodeHs c w = .error .signedStore := by
  have notHalf : (field w 5 2).toNat ≠ 1 := fun half => by
    have := field_eq_of_toNat half
    simp [field_succ_eq_ofNat, b6] at this
  exact if_pos ⟨b20, notHalf⟩

/-- The places of STRSH and STRSB hold no instruction (R107). -/
theorem decode000_signedStore {c : Cond} {w : Word} (b20 : bitAt w 20 = false) (b7 : bitAt w 7 = true)
    (b6 : bitAt w 6 = true) (b4 : bitAt w 4 = true) : decode000 c w = .error .signedStore := by
  have sh : field w 5 2 ≠ 0b00#2 := by simp [field_succ_eq_ofNat, b6]
  rw [decode000, if_pos ⟨b7, b4⟩, if_neg sh, decodeHs_signedStore b20 b6]

/-- A part of a field is a field. -/
theorem extractLsb'_field (w : Word) {lo n k m : Nat} (h : k + m ≤ n) :
    (field w lo n).extractLsb' k m = field w (lo + k) m := by
  refine BitVec.eq_of_getLsbD_eq fun j hj => ?_
  have inside : k + j < n := by omega
  simp only [BitVec.getLsbD_extractLsb', getLsbD_field, hj, inside, decide_true, Bool.true_and, Nat.add_assoc]

/-- The fields R92 looks at in the place of BLX (R108). -/
theorem blxPlace_fields {w : Word} (place : field w 4 24 = 0x12FFF3#24) :
    field w 25 3 = 0b000#3 ∧ field w 23 2 = 0b10#2 ∧ field w 21 2 = 0b01#2 ∧ field w 20 1 = 0b0#1 ∧
      field w 8 12 = 0xFFF#12 ∧ field w 4 4 = 0b0011#4 := by
  have part (k m : Nat) (h : k + m ≤ 24) : field w (4 + k) m = (0x12FFF3#24).extractLsb' k m := by
    rw [← extractLsb'_field w h, place]
  exact ⟨part 21 3 (by decide), part 19 2 (by decide), part 17 2 (by decide), part 16 1 (by decide),
    part 4 12 (by decide), part 0 4 (by decide)⟩

/-- The place of BLX holds no instruction (R108). -/
theorem decode000_blxAbsent {c : Cond} {w : Word} (place : field w 4 24 = 0x12FFF3#24) :
    decode000 c w = .error .blxAbsent := by
  obtain ⟨-, op, b21, b20, ones, low⟩ := blxPlace_fields place
  have lowBits := low
  simp only [field_succ_eq_ofNat] at lowBits b20
  simp [decode000, decodeMisc, op, b21, b20, ones, low, lowBits]

/-- Settles O4: the first part by the walk through R92, the other two in class 000. -/
theorem absentInstructionsRefused : Obligations.AbsentInstructionsRefused := by
  refine ⟨decodeWord_eq_condNever_iff, fun w allowed cls b20 b7 b6 b4 => ?_, fun w allowed place => ?_⟩
  · obtain ⟨c, read⟩ := decodeWord_class000 allowed cls
    exact read.trans (decode000_signedStore b20 b7 b6 b4)
  · obtain ⟨cls, -⟩ := blxPlace_fields place
    obtain ⟨c, read⟩ := decodeWord_class000 allowed cls
    exact read.trans (decode000_blxAbsent place)

end Sys2Proof

/-! Conditional execution: the table of conditions, and the instruction whose condition fails. -/

namespace Sys2Proof.Machine

/-- Settles O6: a failed condition leaves only the advance of PC, and below the top of the address space that is all it does. -/
theorem failedConditionOnlyAdvances : Obligations.FailedConditionOnlyAdvances := by
  intro i s failed below
  rw [exec_of_failed failed, advance_eq below]

/-- Settles O5: the codes by evaluation, each test of R121 as its Boolean connective says. -/
theorem conditionTable : Obligations.ConditionTable := by
  refine ⟨⟨rfl, fun w => ?eq⟩, ⟨rfl, fun w => ?ne⟩, ⟨rfl, fun w => ?cs⟩, ⟨rfl, fun w => ?cc⟩, ⟨rfl, fun w => ?mi⟩,
    ⟨rfl, fun w => ?pl⟩, ⟨rfl, fun w => ?vs⟩, ⟨rfl, fun w => ?vc⟩, ⟨rfl, fun w => ?hi⟩, ⟨rfl, fun w => ?ls⟩,
    ⟨rfl, fun w => ?ge⟩, ⟨rfl, fun w => ?lt⟩, ⟨rfl, fun w => ?gt⟩, ⟨rfl, fun w => ?le⟩, ⟨rfl, fun w => ?al⟩, rfl⟩
  case eq | cs | mi | vs => exact Iff.rfl
  case ne | cc | pl | vc => exact (Bool.not_eq_true' _).to_iff
  case hi => exact Bool.and_eq_true_iff.trans (and_congr_right' (Bool.not_eq_true' _).to_iff)
  case ls => exact Bool.or_eq_true_iff.trans (or_congr_left (Bool.not_eq_true' _).to_iff)
  case ge => exact beq_iff_eq
  case lt => exact bne_iff_ne
  case gt => exact Bool.and_eq_true_iff.trans (and_congr (Bool.not_eq_true' _).to_iff beq_iff_eq)
  case le => exact Bool.or_eq_true_iff.trans (or_congr_right bne_iff_ne)
  case al => rfl

end Sys2Proof.Machine

/-! The branches: where they go, and what a jump and the link leave unchanged. -/

namespace Sys2Proof.Machine

/-! The frame `OnlyChanges`, update by update. -/

theorem OnlyChanges.refl (s : State) : OnlyChanges s s [] [] :=
  ⟨fun _ _ => rfl, fun _ _ => rfl, fun _ _ => rfl, rfl, rfl, rfl⟩

/-- A jump writes PC and drops the instructions fetched ahead, which no frame lists (R7, R73). -/
theorem OnlyChanges.branchTo {s u : State} {regs : List PReg} {bytes : List Nat} (h : OnlyChanges s u regs bytes) (v : Word) :
    OnlyChanges s (u.branchTo v) regs bytes := h

/-- A write of a physical register adds that register to the frame (R7). -/
theorem OnlyChanges.setPReg {s u : State} {regs : List PReg} {bytes : List Nat} (h : OnlyChanges s u regs bytes) (p : PReg)
    (v : Word) : OnlyChanges s (u.setPReg p v) (p :: regs) bytes := by
  obtain ⟨hregs, rest⟩ := h
  refine ⟨fun q hq => ?_, rest⟩
  rw [List.mem_cons, not_or] at hq
  obtain ⟨other, unlisted⟩ := hq
  rw [State.setPReg_preg, if_neg (Ne.symm other), hregs q unlisted]

/-! The target of B and BL (R98, R131). -/

/-- The 24-bit offset counts words: with 00 appended it is four times the number it names, sign and all (R98). -/
theorem branchOffset_eq (imm24 : BitVec 24) : (imm24 ++ 0b00#2).signExtend 32 = BitVec.ofInt 32 (4 * imm24.toInt) :=
  congrArg (BitVec.ofInt 32) BitVec.toInt_append_zero

/-- The target as a number: the instruction's address plus 8 plus the offset, modulo 2^32 (R131). -/
theorem toNat_branchTarget (s : State) (imm24 : BitVec 24) :
    ((branchTarget s imm24).toNat : Int) = ((s.pc.toNat : Int) + 8 + 4 * imm24.toInt) % 2 ^ 32 := by
  have target : branchTarget s imm24 = BitVec.ofInt 32 ((s.pc.toNat : Int) + 8 + 4 * imm24.toInt) := by
    rw [branchTarget, branchOffset_eq, BitVec.ofInt_add, BitVec.ofInt_add, BitVec.ofInt_natCast, BitVec.ofNat_toNat,
      BitVec.setWidth_eq]
    rfl
  rw [target, BitVec.toNat_ofInt, Int.toNat_of_nonneg (Int.emod_nonneg _ (by decide))]
  rfl

/-- A target below 2^32 is reached, one below address 0 by wrapping (R131, log 18). -/
theorem branchOp_reached {s : State} {imm24 : BitVec 24} (h : (s.pc.toNat : Int) + 8 + 4 * imm24.toInt < 2 ^ 32) :
    branchOp imm24 s = .next (s.branchTo (branchTarget s imm24)) :=
  if_neg fun past => absurd (of_decide_eq_true past) (not_le.2 h)

/-- A target past the top of the address space is refused (U14, D19). -/
theorem branchOp_refused {s : State} {imm24 : BitVec 24} (h : 2 ^ 32 ≤ (s.pc.toNat : Int) + 8 + 4 * imm24.toInt) :
    branchOp imm24 s = .refused .pcWrap :=
  if_pos (decide_eq_true h)

/-! The three instructions, once they run. -/

/-- A running instruction has its effect. -/
theorem guarded_of_runs {i : Instr} {s : State} (h : Runs i s) (e : Result) : guarded i s e = e := by
  obtain ⟨passed, wellFormed⟩ := h
  exact guarded_passed e passed wellFormed

/-- The state BL jumps from: the address of the next instruction is in R14 of the mode (R132). -/
def State.linked (s : State) : State := s.setPReg (bank s.mode 14#4) (s.pc + 4#32)

theorem exec_b_of_runs {c : Cond} {imm24 : BitVec 24} {s : State} (h : Runs (.b c imm24) s) :
    exec (.b c imm24) s = branchOp imm24 s := guarded_of_runs h _

theorem exec_bl_of_runs {c : Cond} {imm24 : BitVec 24} {s : State} (h : Runs (.bl c imm24) s) :
    exec (.bl c imm24) s = branchOp imm24 s.linked := guarded_of_runs h _

theorem exec_bx_of_runs {c : Cond} {rm : RegNum} {s : State} (h : Runs (.bx c rm) s) :
    exec (.bx c rm) s = bxOp (s.reg rm) s := guarded_of_runs h _

@[simp] theorem State.linked_pc (s : State) : s.linked.pc = s.pc := rfl

theorem State.linked_link (s : State) : s.linked.preg (bank s.mode 14#4) = s.pc + 4#32 := by
  rw [State.linked, State.setPReg_preg, if_pos rfl]

theorem State.linked_onlyChanges (s : State) : OnlyChanges s s.linked [bank s.mode 14#4] [] := (OnlyChanges.refl s).setPReg _ _

/-- Settles O27: each instruction runs as the jump of `branchOp`, BL from the state that holds the link already. -/
theorem branches : Obligations.Branches := by
  rintro c imm24 s target rfl
  refine ⟨fun runs below => ?b, fun runs below => ?bl, fun runs past => ?bPast, fun runs past => ?blPast⟩
  case b =>
    exact ⟨_, (exec_b_of_runs runs).trans (branchOp_reached below), toNat_branchTarget s imm24, rfl, rfl,
      (OnlyChanges.refl s).branchTo _, rfl⟩
  case bl =>
    exact ⟨_, (exec_bl_of_runs runs).trans (branchOp_reached below), toNat_branchTarget s.linked imm24, s.linked_link, rfl, rfl,
      s.linked_onlyChanges.branchTo _, rfl⟩
  case bPast => exact (exec_b_of_runs runs).trans (branchOp_refused past)
  case blPast => exact (exec_bl_of_runs runs).trans (branchOp_refused past)

/-! BX (R134). -/

/-- The state after BX to an allowed target. -/
theorem bxOp_reached {v : Word} {s : State} (h : field v 0 2 ≠ 0b10#2) :
    bxOp v s = .next ((s.setCpsr (psrSetT s.cpsr (bitAt v 0))).branchTo (alignHalf v)) := if_neg h

/-- Bits 1:0 = 10 name no target. -/
theorem bxOp_refused {v : Word} {s : State} (h : field v 0 2 = 0b10#2) : bxOp v s = .refused .bxTarget := if_pos h

/-- Settles O28: the jump leaves all but PC and the fetched words alone, and of CPSR only T is rewritten. -/
theorem branchExchange : Obligations.BranchExchange := by
  intro c rm s runs
  rw [exec_bx_of_runs runs]
  refine ⟨fun allowed => ?reached, bxOp_refused⟩
  case reached =>
    have sameFlags : field (psrSetT s.cpsr (bitAt (s.reg rm) 0)) 28 4 = field s.cpsr 28 4 :=
      flags_ext (psrN_setT ..) (psrZ_setT ..) (psrC_setT ..) (psrV_setT ..)
    exact ⟨_, bxOp_reached allowed, psrT_setT .., rfl, rfl, sameFlags, psrM_setT .., psrI_setT .., psrF_setT ..,
      reserved_setT .., fun _ _ => rfl, fun _ _ => rfl, fun _ _ => rfl, ⟨rfl, rfl⟩, rfl⟩

end Sys2Proof.Machine

/-! Operands the spec calls UNPREDICTABLE: the refusal comes before the instruction's own effect. -/

namespace Sys2Proof.Machine

/-- A broken restriction is refused by its name, once the condition passes (log 15). -/
theorem guarded_restricted {i : Instr} {s : State} {r : Restriction} (e : Result) (passed : condPassed i.cond s.cpsr = true)
    (broken : i.restriction = some r) : guarded i s e = .refused (.unpredictable r) := by
  simp [guarded, passed, broken]

/-- Every instruction stands behind `guarded`. -/
theorem exec_restricted {i : Instr} {s : State} {r : Restriction} (passed : condPassed i.cond s.cpsr = true)
    (broken : i.restriction = some r) : exec i s = .refused (.unpredictable r) := by
  cases i <;> exact guarded_restricted _ passed broken

/-- The four kinds of halfword or signed transfer with P = 0 and W = 1 break R182, and have the condition they are written with. -/
theorem restriction_postIndexedW {c : Cond} {u : Bool} {rn rd : RegNum} {o : HsOffset} {i : Instr}
    (row : i = ldrhRow c .postIndexedW u rn rd o ∨ i = strhRow c .postIndexedW u rn rd o ∨
      i = ldrsbRow c .postIndexedW u rn rd o ∨ i = ldrshRow c .postIndexedW u rn rd o) :
    i.cond = c ∧ i.restriction = some .postWriteback := by
  rcases row with rfl | rfl | rfl | rfl <;> cases o <;> exact ⟨rfl, rfl⟩

/-- Settles O7: each meaning is guarded, and P = 0 with W = 1 is a restriction like the others. -/
theorem unpredictableOperandsRefused : Obligations.UnpredictableOperandsRefused := by
  refine ⟨fun i s r => exec_restricted, fun c u rn rd o s i row passed => ?_⟩
  obtain ⟨rfl, broken⟩ := restriction_postIndexedW row
  exact exec_restricted passed broken

end Sys2Proof.Machine

/-! The second operand (R143 to R146). -/

namespace Sys2Proof.Machine

/-! What the shifts do to a word, bit by bit or in arithmetic. -/

/-- A rotation to the right brings bit `i + r` (modulo 32) to bit `i`. -/
theorem bitAt_rotateRight (w : Word) (r : Nat) {i : Nat} (hi : i < 32) :
    bitAt (w.rotateRight r) i = bitAt w ((i + r) % 32) := by
  rw [bitAt, BitVec.getLsbD_rotateRight, bitAt]
  by_cases below : i < 32 - r % 32
  · rw [decide_eq_true below, cond_true]
    congr 1
    omega
  · rw [decide_eq_false below, cond_false, decide_eq_true hi, Bool.true_and]
    congr 1
    omega

theorem toNat_shiftLeft_eq (w : Word) (a : Nat) : (w <<< a).toNat = w.toNat * 2 ^ a % 2 ^ 32 := by
  rw [BitVec.toNat_shiftLeft, Nat.shiftLeft_eq]

theorem toNat_shiftRight_eq (w : Word) (a : Nat) : (w >>> a).toNat = w.toNat / 2 ^ a := by
  rw [BitVec.toNat_ushiftRight, Nat.shiftRight_eq_div_pow]

theorem toInt_sshiftRight_eq (w : Word) (a : Nat) : (w.sshiftRight a).toInt = w.toInt / 2 ^ a := by
  rw [BitVec.toInt_sshiftRight, Int.shiftRight_eq_div_pow]
  norm_cast

/-! The amounts 1 to 31, where a constant and a register shift alike. -/

/-- A shift by an amount from 1 to 31 (R145, R146). -/
def shiftWithin (t : ShiftType) (a : Nat) (w : Word) : Shifted :=
  match t with
  | .lsl => ⟨w <<< a, bitAt w (32 - a)⟩
  | .lsr => ⟨w >>> a, bitAt w (a - 1)⟩
  | .asr => ⟨w.sshiftRight a, bitAt w (a - 1)⟩
  | .ror => ⟨w.rotateRight a, bitAt w (a - 1)⟩

/-- A constant other than 0 is such an amount (R145). -/
theorem shiftByImm_within (t : ShiftType) {a : Nat} (w : Word) (c : Bool) (h : a ≠ 0) :
    shiftByImm t a w c = shiftWithin t a w := by
  cases t <;> exact if_neg h

/-- A register's amount below 32, other than 0 (R146). -/
theorem shiftByReg_within (t : ShiftType) {a : Nat} (w : Word) (c : Bool) (h : 0 < a) (below : a < 32) :
    shiftByReg t a w c = shiftWithin t a w := by
  refine (if_neg h.ne').trans ?_
  cases t with
  | lsl | lsr | asr => exact if_pos below
  | ror =>
    have small : a % 32 = a := Nat.mod_eq_of_lt below
    simp only [small, if_neg h.ne', shiftWithin]

/-- A rotation by a register counts modulo 32 (R146). -/
theorem shiftByReg_ror {a : Nat} (w : Word) (c : Bool) (h : a % 32 ≠ 0) :
    shiftByReg .ror a w c = shiftWithin .ror (a % 32) w := by
  have pos : a ≠ 0 := by omega
  exact (if_neg pos).trans (if_neg h)

/-! The three forms. -/

theorem operand2_shImm (a : BitVec 5) (t : ShiftType) (rm : RegNum) (s : State) :
    operand2 (.shImm a t rm) s = shiftByImm t a.toNat (s.reg rm) (psrC s.cpsr) := rfl

/-- The amount in a register is its low byte (R146). -/
theorem operand2_shReg (rs : RegNum) (t : ShiftType) (rm : RegNum) (s : State) :
    operand2 (.shReg rs t rm) s = shiftByReg t ((s.reg rs).toNat % 256) (s.reg rm) (psrC s.cpsr) := by
  have lowByte : (field (s.reg rs) 0 8).toNat = (s.reg rs).toNat % 256 := by
    rw [field, BitVec.extractLsb'_toNat, Nat.shiftRight_zero]
  rw [operand2, lowByte]

/-- Settles O13: the constant is rotated with 24 zeros above it, which the bits 8 and up of the byte read as. -/
theorem immediateOperand : Obligations.ImmediateOperand := by
  refine fun rot imm8 s => ⟨fun i hi => ?_, rfl⟩
  have inside : (i + 2 * rot.toNat) % 32 < 32 := Nat.mod_lt _ (by decide)
  calc bitAt (rotatedImm rot imm8) i
      = bitAt (imm8.setWidth 32) ((i + 2 * rot.toNat) % 32) := bitAt_rotateRight _ _ hi
    _ = imm8.getLsbD ((i + 2 * rot.toNat) % 32) := by
      rw [bitAt, BitVec.getLsbD_setWidth, decide_eq_true inside, Bool.true_and]

/-- RRX: bits 31:1 go one place down, the C flag goes in at the top (R145). -/
theorem bitAt_rrx (c : Bool) (w : Word) {i : Nat} (hi : i < 32) :
    bitAt (BitVec.ofBool c ++ field w 1 31) i = if i = 31 then c else bitAt w (i + 1) := by
  rw [bitAt, BitVec.getLsbD_append, getLsbD_field]
  by_cases top : i = 31
  · subst top
    simp
  · have low : i < 31 := by omega
    rw [if_pos low, if_neg top, decide_eq_true low, Bool.true_and, Nat.add_comm]

/-- Settles O14: the amount 0 has a row of its own for each kind of shift, the other amounts are those of `shiftWithin`. -/
theorem shiftByConstant : Obligations.ShiftByConstant := by
  intro a rm s
  refine ⟨fun zero => ?zero, fun nonzero => ?within⟩
  case zero =>
    subst zero
    have rrx {i : Nat} (hi : i < 32) : bitAt (operand2 (.shImm 0#5 .ror rm) s).value i =
        if i = 31 then psrC s.cpsr else bitAt (s.reg rm) (i + 1) := bitAt_rrx (psrC s.cpsr) (s.reg rm) hi
    exact ⟨rfl, rfl, rfl, fun i hi => (rrx (by omega)).trans (if_neg (by omega)), rrx (by decide), rfl⟩
  case within =>
    have pos : a.toNat ≠ 0 := fun h => nonzero (BitVec.eq_of_toNat_eq h)
    simp only [operand2_shImm, shiftByImm_within _ _ _ pos]
    exact ⟨toNat_shiftLeft_eq .., rfl, toNat_shiftRight_eq .., rfl, toInt_sshiftRight_eq .., rfl,
      fun i hi => bitAt_rotateRight _ _ hi, rfl⟩

/-- Settles O15: by the range of the amount, 1 to 31 as `shiftWithin` says, from 32 on by the arms of the shift itself. -/
theorem shiftByRegister : Obligations.ShiftByRegister := by
  rintro t rs rm s a amount
  rw [operand2_shReg, ← amount]
  refine ⟨?zero, fun pos below => ?within, ?lsl32, ?lsr32, ?past, ?asr, ?whole, fun part => ?ror⟩
  case zero => exact fun zero => if_pos zero
  case within =>
    rw [shiftByReg_within t _ _ pos below]
    refine ⟨?_, ?_, ?_⟩ <;> rintro rfl
    · exact ⟨toNat_shiftLeft_eq .., rfl⟩
    · exact ⟨toNat_shiftRight_eq .., rfl⟩
    · exact ⟨toInt_sshiftRight_eq .., rfl⟩
  case lsl32 | lsr32 => rintro h rfl; rw [h]; rfl
  case past =>
    intro past kind
    have h0 : a ≠ 0 := by omega
    have h32 : ¬ a < 32 := by omega
    have hne : a ≠ 32 := by omega
    rcases kind with rfl | rfl <;> simp only [shiftByReg, if_neg h0, if_neg h32, if_neg hne]
  case asr =>
    rintro large rfl
    have h0 : a ≠ 0 := by omega
    have h32 : ¬ a < 32 := by omega
    simp only [shiftByReg, if_neg h0, if_neg h32]
  case whole =>
    rintro pos whole rfl
    simp only [shiftByReg, if_neg pos.ne', if_pos whole]
  case ror =>
    rintro rfl
    rw [shiftByReg_ror _ _ part]
    refine ⟨fun i hi => (bitAt_rotateRight _ _ hi).trans ?_, rfl⟩
    rw [Nat.add_mod_mod]

end Sys2Proof.Machine

/-! Data processing: what the units compute, and what the sixteen instructions write (R147 to R166). -/

namespace Sys2Proof.Machine

/-! The units (R147). -/

theorem logicalResult_eq (r : Word) (sco v : Bool) : logicalResult r sco v = ⟨r, negative r, r == 0#32, sco, v⟩ := by
  rw [logicalResult, bitAt_31]

/-- Each unit computes what its rules say: the result in words, N and Z from it, C and V in integers. -/
theorem unit_eq (op : DataOpcode) (a : Word) (o : Shifted) (c v : Bool) : op.unit a o c v =
    ⟨op.result a o.value c, negative (op.result a o.value c), op.result a o.value c == 0#32,
      op.carry a o.value c o.carry, op.overflow a o.value c v⟩ := by
  cases op with
  | and | eor | orr | bic | mov => exact logicalResult_eq ..
  | mvn =>
    have complement : 0xFFFFFFFF#32 ^^^ o.value = ~~~o.value := BitVec.allOnes_xor
    exact (congrArg (logicalResult · o.carry v) complement).trans (logicalResult_eq ..)
  | adc => exact arithResult_eq ..
  | sbc | rsc => exact arithResult_complement ..
  | add =>
    refine (arithResult_eq ..).trans ?_
    simp [DataOpcode.result, DataOpcode.carry, DataOpcode.overflow, carryWord]
  | sub | rsb =>
    refine (arithResult_complement ..).trans ?_
    simp [DataOpcode.result, DataOpcode.carry, DataOpcode.overflow, carryWord]

/-- The unit of an opcode at a state. -/
theorem alu_value (s : State) (op : DataOpcode) (rn : RegNum) (o : Operand2) :
    (s.alu op.unit (s.reg rn) o).value = s.dataResult op rn o := by
  rw [State.alu, unit_eq, State.dataResult]

/-- The flags of an opcode, once written to CPSR. -/
theorem dataFlags_setAluFlags (s : State) (op : DataOpcode) (rn : RegNum) (o : Operand2) :
    s.dataFlags (s.setAluFlags (s.alu op.unit (s.reg rn) o)) op rn o := by
  rw [State.dataFlags, FlagsAre, State.setAluFlags_cpsr, psrN_setFlags, psrZ_setFlags, psrC_setFlags, psrV_setFlags, State.alu,
    unit_eq]
  exact ⟨rfl, rfl, rfl, rfl⟩

/-! The frame `OnlyChanges`, of the updates a data-processing instruction makes. -/

/-- The flags are no part of the frame (R31). -/
theorem OnlyChanges.setAluFlags {s u : State} {regs : List PReg} {bytes : List Nat} (h : OnlyChanges s u regs bytes)
    (r : AluResult) : OnlyChanges s (u.setAluFlags r) regs bytes := by
  obtain ⟨hregs, hbytes, hspsr, hcontrol, hworld⟩ := h
  exact ⟨hregs, hbytes, hspsr, (control_setFlags ..).trans hcontrol, hworld⟩

/-- Nor is PC. -/
theorem OnlyChanges.setPc {s u : State} {regs : List PReg} {bytes : List Nat} (h : OnlyChanges s u regs bytes) (v : Word) :
    OnlyChanges s (u.setPc v) regs bytes := h

/-! A destination other than R15 (R148). -/

/-- The state with the flags of a result, if S is set. -/
def State.flagged (s : State) (sf : Bool) (r : AluResult) : State := if sf then s.setAluFlags r else s

@[simp] theorem State.flagged_mode (s : State) (sf : Bool) (r : AluResult) : (s.flagged sf r).mode = s.mode := by
  cases sf <;> simp [State.flagged]

@[simp] theorem State.flagged_pc (s : State) (sf : Bool) (r : AluResult) : (s.flagged sf r).pc = s.pc := by
  cases sf <;> rfl

@[simp] theorem State.flagged_io (s : State) (sf : Bool) (r : AluResult) : (s.flagged sf r).io = s.io := by
  cases sf <;> rfl

theorem State.flagged_onlyChanges (s : State) (sf : Bool) (r : AluResult) : OnlyChanges s (s.flagged sf r) [] [] := by
  cases sf
  · exact .refl s
  · exact (OnlyChanges.refl s).setAluFlags r

/-- With S the flags are the opcode's, without it they are kept (R148). -/
theorem State.flagged_flags (s : State) (sf : Bool) (op : DataOpcode) (rn : RegNum) (o : Operand2) :
    if sf then s.dataFlags (s.flagged sf (s.alu op.unit (s.reg rn) o)) op rn o
    else SameFlags s (s.flagged sf (s.alu op.unit (s.reg rn) o)) := by
  cases sf
  · exact rfl
  · exact dataFlags_setAluFlags s op rn o

/-- The flags, the register, then the next word. -/
theorem writeResult_register {d : RegNum} {sf : Bool} {r : AluResult} {s : State} (hd : d ≠ pcNum)
    (below : s.pc < 0xFFFFFFFC#32) :
    writeResult d sf r s = .next (((s.flagged sf r).setPReg (bank s.mode d) r.value).setPc (s.pc + 4#32)) := by
  have body : (if sf then s.setAluFlags r else s).setReg d r.value = (s.flagged sf r).setPReg (bank s.mode d) r.value := by
    rw [← State.flagged, State.setReg_of_ne _ _ hd, State.flagged_mode]
  have pc : ((s.flagged sf r).setPReg (bank s.mode d) r.value).pc = s.pc := by
    rw [State.setPReg_pc, State.flagged_pc]
  rw [writeResult, if_neg hd, body, advance_eq (by rwa [pc]), pc]

/-- A data-processing row that runs is its opcode's unit. -/
theorem exec_dataRow_of_runs {op : DataOpcode} {c : Cond} {sf : Bool} {rn rd : RegNum} {o : Operand2} {s : State}
    (runs : Runs (op.row c sf rn rd o) s) :
    exec (op.row c sf rn rd o) s = writeResult rd sf (s.alu op.unit (s.reg rn) o) s :=
  (exec_dataRow ..).trans (guarded_of_runs runs _)

/-- What the twelve instructions with a destination do when it is not R15: R148 is one rule for the logical and the arithmetic
group, which differ in `DataOpcode.carry` and `DataOpcode.overflow` alone. -/
theorem dataRow_writes {op : DataOpcode} {c : Cond} {sf : Bool} {rn rd : RegNum} {o : Operand2} {s : State}
    (runs : Runs (op.row c sf rn rd o) s) (hd : rd ≠ pcNum) (below : s.pc < 0xFFFFFFFC#32) :
    ∃ t, exec (op.row c sf rn rd o) s = .next t ∧ t.preg (bank s.mode rd) = s.dataResult op rn o ∧
      (if sf then s.dataFlags t op rn o else SameFlags s t) ∧ t.pc = s.pc + 4#32 ∧
      OnlyChanges s t [bank s.mode rd] [] ∧ t.io = s.io := by
  refine ⟨_, (exec_dataRow_of_runs runs).trans (writeResult_register hd below), ?result, s.flagged_flags sf op rn o, rfl,
    ((s.flagged_onlyChanges sf _).setPReg _ _).setPc _, State.flagged_io ..⟩
  case result => exact ((State.setPReg_preg ..).trans (if_pos rfl)).trans (alu_value ..)

/-- Settles O8: the rule of `dataRow_writes`; the units of the logical group pass the shifter's carry on and keep V. -/
theorem logicalInstructions : Obligations.LogicalInstructions :=
  fun _ _ _ _ _ _ _ _ => dataRow_writes

/-- Settles O9: the same rule; the units of the arithmetic group take C and V from the sum or the difference. -/
theorem arithmeticInstructions : Obligations.ArithmeticInstructions :=
  fun _ _ _ _ _ _ _ _ => dataRow_writes

/-- Settles O10: a test is the unit of the destination form, with its flags and without its register. -/
theorem testInstructions : Obligations.TestInstructions := by
  intro op c rn o s runs below
  have next : exec (op.row c rn o) s =
      .next ((s.setAluFlags (s.alu op.base.unit (s.reg rn) o)).setPc (s.pc + 4#32)) :=
    ((exec_testRow ..).trans (guarded_of_runs runs _)).trans (advance_eq (s := s.setAluFlags _) below)
  exact ⟨_, next, dataFlags_setAluFlags s op.base rn o, rfl, ((OnlyChanges.refl s).setAluFlags _).setPc _, rfl⟩

/-! The destination R15 (R148, R149). -/

/-- Settles O11: without S the result goes to PC alone. -/
theorem dataInstructionJumps : Obligations.DataInstructionJumps := by
  intro op c rn o s runs
  have jump : exec (op.row c false rn pcNum o) s = .next (s.branchTo (alignWord (s.dataResult op rn o))) := by
    rw [exec_dataRow_of_runs runs, ← alu_value, ← State.setReg_pcNum]
    rfl
  exact ⟨_, jump, rfl, rfl, rfl, (OnlyChanges.refl s).branchTo _, rfl⟩

section exceptionReturn
variable {v w : Word} {s : State}

/-- A return to a legal mode (R275). -/
theorem exceptionReturn_legal (saved : s.currentSpsr = some w) (legal : legalMode (psrM w) = true) :
    exceptionReturn v s = .next ((s.setCpsr w).branchTo (if psrT w then alignHalf v else alignWord v)) := by
  simp [exceptionReturn, saved, legal]

/-- A return to an illegal mode (R226). -/
theorem exceptionReturn_illegal (saved : s.currentSpsr = some w) (illegal : legalMode (psrM w) = false) :
    exceptionReturn v s = .fault .illegalMode := by
  simp [exceptionReturn, saved, illegal]

/-- A return in a mode without an SPSR (R148). -/
theorem exceptionReturn_noSpsr (unsaved : s.currentSpsr = none) : exceptionReturn v s = .fault .noSpsr := by
  simp [exceptionReturn, unsaved]

end exceptionReturn

/-- The low bits a return ignores, as a mask chosen by the restored T (R148). -/
theorem returnTarget_eq (v w : Word) : (if psrT w then alignHalf v else alignWord v) =
    v &&& (if psrT w then 0xFFFFFFFE#32 else 0xFFFFFFFC#32) :=
  (apply_ite (v &&& ·) _ _ _).symm

/-- Settles O12: with S the result goes to PC through the exception return. -/
theorem dataInstructionReturns : Obligations.DataInstructionReturns := by
  intro op c rn o s runs
  have ret : exec (op.row c true rn pcNum o) s = exceptionReturn (s.dataResult op rn o) s := by
    rw [exec_dataRow_of_runs runs, ← alu_value]
    rfl
  rw [ret]
  refine ⟨fun k saved legal => ?legal, fun k saved => ?illegal, fun unsaved => ?unsaved⟩
  case legal =>
    exact ⟨_, exceptionReturn_legal (State.currentSpsr_some saved) legal, rfl, returnTarget_eq .., rfl, fun _ _ => rfl,
      fun _ _ => rfl, fun _ _ => rfl, ⟨rfl, rfl⟩, rfl⟩
  case illegal => exact exceptionReturn_illegal (State.currentSpsr_some saved)
  case unsaved => exact exceptionReturn_noSpsr (State.currentSpsr_none unsaved)

end Sys2Proof.Machine

/-! Single transfers and swaps (R181 to R198): the address, the access, and what is left unchanged. -/

namespace Sys2Proof.Machine

/-! The address and the value written back (R181, R182). -/

/-- Settles O18: both formats are `addressing` of their offset, and the indexing form chooses between its two outcomes. -/
theorem transferAddresses : Obligations.TransferAddresses := by
  refine ⟨fun ix u rn o s => ?ls, fun ix u rn o s allowed => ?hs, fun imm s => ?imm12, fun a t rm s => rfl,
    fun h l s => ?imm8, fun rm s => rfl⟩
  case ls => cases ix <;> rfl
  case hs =>
    cases ix with
    | offset | preIndexed | postIndexed => rfl
    | postIndexedW => exact absurd rfl allowed
  case imm12 => exact BitVec.toNat_setWidth_of_le (by decide)
  case imm8 =>
    have joined : (h ++ l).toNat = 16 * h.toNat + l.toNat := by
      rw [BitVec.toNat_append, ← Nat.shiftLeft_add_eq_or_of_lt l.isLt, Nat.shiftLeft_eq, Nat.mul_comm]
    exact (BitVec.toNat_setWidth_of_le (by decide)).trans joined

/-- The form that writes the base back is the one whose addressing has a value for it. -/
theorem lsAddressing_writeback (p u wb : Bool) (n : RegNum) (o : LsOffset) (s : State) :
    (lsAddressing p u wb n o s).writeback.isSome = wb := by cases wb <;> rfl

theorem hsAddressing_writeback (ix : HsIndex) (u : Bool) (n : RegNum) (o : HsOffset) (s : State) :
    (hsAddressing ix u n o s).writeback.isSome = ix.writesBack := by cases ix <;> rfl

/-! The state after one access to memory or to a device (R61, R69). -/

/-- The state after a read of existing bytes. -/
def State.afterRead (s : State) (a : Word) (n : AccessSize) : State :=
  if s.accessDevice a n then s.addIo (.read a n) else s

/-- The state after a write of existing bytes. -/
def State.afterWrite (s : State) (a : Word) (n : AccessSize) (v : Word) : State :=
  if s.accessDevice a n then s.addIo (.write a n (v &&& sizeMask n)) else s.setMem (s.mem.writeSize a v n)

theorem memRead_exists {s : State} {a : Word} {n : AccessSize} (h : s.accessExists a n = true) :
    memRead s a n = some (s.readValue a n, s.afterRead a n) := by
  cases device : s.accessDevice a n with
  | false => simp [memRead_memory h device, State.readValue, State.afterRead, device]
  | true => simp [memRead_device h device, State.readValue, State.afterRead, device]

theorem memWrite_exists {s : State} {a v : Word} {n : AccessSize} (h : s.accessExists a n = true) :
    memWrite s a n v = some (s.afterWrite a n v) := by
  cases device : s.accessDevice a n with
  | false => simp [memWrite_memory h device, State.afterWrite, device]
  | true => simp [memWrite_device h device, State.afterWrite, device]

section access
variable (s : State) (a : Word) (n : AccessSize) (v : Word)

@[simp] theorem State.afterRead_pc : (s.afterRead a n).pc = s.pc := by unfold State.afterRead; split <;> rfl
@[simp] theorem State.afterRead_cpsr : (s.afterRead a n).cpsr = s.cpsr := by unfold State.afterRead; split <;> rfl
@[simp] theorem State.afterRead_accessExists (b : Word) (k : AccessSize) :
    (s.afterRead a n).accessExists b k = s.accessExists b k := by unfold State.afterRead; split <;> rfl
@[simp] theorem State.afterWrite_pc : (s.afterWrite a n v).pc = s.pc := by unfold State.afterWrite; split <;> rfl
@[simp] theorem State.afterWrite_cpsr : (s.afterWrite a n v).cpsr = s.cpsr := by unfold State.afterWrite; split <;> rfl

theorem State.afterRead_io : (s.afterRead a n).io = s.ioAfterRead a n := by
  unfold State.afterRead State.ioAfterRead; split <;> rfl

end access

/-- The frame of what came before, after a read too. -/
theorem OnlyChanges.afterRead {s u : State} {regs : List PReg} {bytes : List Nat} (h : OnlyChanges s u regs bytes) (a : Word)
    (n : AccessSize) : OnlyChanges s (u.afterRead a n) regs bytes := by
  unfold State.afterRead
  split
  · exact h
  · exact h

/-- A write adds its own bytes to the frame (R61, R69). -/
theorem OnlyChanges.afterWrite {s u : State} {regs : List PReg} (h : OnlyChanges s u regs []) (a : Word) (n : AccessSize)
    (v : Word) : OnlyChanges s (u.afterWrite a n v) regs (accessAddrs a n) := by
  obtain ⟨hregs, hbytes, rest⟩ := h
  unfold State.afterWrite
  split
  · exact ⟨hregs, fun b _ => hbytes b List.not_mem_nil, rest⟩
  · refine ⟨hregs, fun b outside => ?_, rest⟩
    have kept : (u.mem.writeSize a v n).read b = u.mem.read b :=
      Memory.read_writeSize_other _ _ _ _ _ fun k hk same => outside (mem_accessAddrs.2 ⟨k, hk, same⟩)
    exact kept.trans (hbytes b List.not_mem_nil)

/-- A write stores the low bytes of its value, or is recorded (R61, R69). -/
theorem State.afterWrite_storedAt (s : State) (a : Word) (n : AccessSize) (v : Word) :
    StoredAt s (s.afterWrite a n v) a n v := by
  obtain ⟨-, bytes, -⟩ := (OnlyChanges.refl s).afterWrite a n v
  cases device : s.accessDevice a n with
  | false =>
    have inMemory : s.afterWrite a n v = s.setMem (s.mem.writeSize a v n) := if_neg (by simp [device])
    rw [inMemory] at bytes ⊢
    rw [StoredAt, if_neg (by simp [device])]
    exact ⟨fun k hk => Memory.read_writeSize_same _ _ _ _ _ hk, bytes, rfl⟩
  | true =>
    rw [StoredAt, if_pos device, State.afterWrite, if_pos device]
    exact ⟨fun _ _ => rfl, rfl⟩

/-- `StoredAt` speaks of memory and the device history alone. -/
theorem StoredAt.congr {s u t : State} {a v : Word} {n : AccessSize} (h : StoredAt s u a n v) (mem : t.mem = u.mem)
    (io : t.io = u.io) : StoredAt s t a n v := by
  simpa only [StoredAt, SameBytes, mem, io] using h

/-! The base register (R181, R182). -/

theorem OnlyChanges.mode {s u : State} {regs : List PReg} {bytes : List Nat} (h : OnlyChanges s u regs bytes) :
    u.mode = s.mode := by
  obtain ⟨-, -, -, control, -⟩ := h
  exact State.mode_congr (psrM_of_control control)

section base
variable {s u : State} {n : RegNum} {addr : Addressing} {bytes : List Nat}

/-- After the access, the write-back changes the base alone. -/
theorem OnlyChanges.writeBase (h : OnlyChanges s u [] bytes) (hn : addr.writeback.isSome = true → n ≠ pcNum) :
    OnlyChanges s (u.writeBase n addr) (baseRegs s.mode n addr.writeback.isSome) bytes := by
  cases written : addr.writeback with
  | none => simpa [State.writeBase, written, baseRegs] using h
  | some v =>
    rw [State.writeBase, written, ← h.mode]
    simp only [State.setReg_of_ne _ _ (hn (by simp [written]))]
    exact h.setPReg _ v

/-- After the access, the write-back gives the base its value. -/
theorem baseWritten_writeBase (mode : u.mode = s.mode) (hn : addr.writeback.isSome = true → n ≠ pcNum) :
    BaseWritten s (u.writeBase n addr) n addr := by
  intro v written
  have base : n ≠ pcNum := hn (by simp [written])
  simp only [State.writeBase_preg, written, mode]
  exact if_pos ⟨base, trivial⟩

theorem State.writeBase_pc_eq (hn : addr.writeback.isSome = true → n ≠ pcNum) : (u.writeBase n addr).pc = u.pc := by
  refine (State.writeBase_pc u n addr ?_).1
  cases written : addr.writeback with
  | none => exact .inl rfl
  | some v => exact .inr (hn (by simp [written]))

end base

/-! What the operand restrictions give a transfer (R181, R182, R187 to R192). -/

/-- The registers of a transfer that breaks no restriction. -/
structure TransferRegs (wb narrow : Bool) (rn rd : RegNum) : Prop where
  /-- R15 is not written back. -/
  base : wb = true → rn ≠ pcNum
  /-- The base written back is not the register transferred. -/
  apart : wb = true → rd ≠ rn
  /-- A byte, a halfword or a signed value is not transferred to or from R15. -/
  data : narrow = true → rd ≠ pcNum

theorem transferRegs_of_restrictTransfer {wb narrow : Bool} {rn rd : RegNum} {rm : Option RegNum}
    (h : restrictTransfer wb narrow rn rd rm = none) : TransferRegs wb narrow rn rd := by
  simp only [restrictTransfer, firstBroken_cons_none] at h
  obtain ⟨hdata, -, hbase, hapart, -⟩ := h
  constructor
  case base => rintro rfl; simpa using hbase
  case apart => rintro rfl same; simp [same] at hapart
  case data => rintro rfl; simpa using hdata

/-- What runs breaks no restriction. -/
theorem Runs.restriction_none {i : Instr} {s : State} (runs : Runs i s) : i.restriction = none := by
  obtain ⟨-, wellFormed⟩ := runs
  simpa [Instr.wellFormed] using wellFormed

/-- A running transfer has its effect, and registers as its restrictions say. -/
theorem transfer_of_runs {i : Instr} {s : State} {wb narrow : Bool} {rn rd : RegNum} {rm : Option RegNum} {e : Result}
    (runs : Runs i s) (meaning : exec i s = guarded i s e)
    (restricted : i.restriction = restrictTransfer wb narrow rn rd rm) :
    exec i s = e ∧ TransferRegs wb narrow rn rd :=
  ⟨meaning.trans (guarded_of_runs runs e),
    transferRegs_of_restrictTransfer (restricted.symm.trans runs.restriction_none)⟩

/-- A running halfword or signed transfer likewise (R182). -/
theorem hsTransfer_of_runs {i : Instr} {s : State} {ix : HsIndex} {rn rd : RegNum} {rm : Option RegNum} {e : Result}
    (runs : Runs i s) (meaning : exec i s = guarded i s e) (restricted : i.restriction = restrictHs ix rn rd rm) :
    exec i s = e ∧ TransferRegs ix.writesBack true rn rd := by
  obtain ⟨-, shared⟩ := restrictHs_none (restricted.symm.trans runs.restriction_none)
  exact ⟨meaning.trans (guarded_of_runs runs e), transferRegs_of_restrictTransfer shared⟩

/-- A halfword access at an even address has its effect (R64). -/
theorem evenOnly_even {a : Addressing} (e : Result) (h : bitAt a.addr 0 = false) : evenOnly a e = e :=
  if_neg (by simp [h])

/-- A halfword transfer at an even address likewise (R64, R182). -/
theorem evenTransfer_of_runs {i : Instr} {s : State} {ix : HsIndex} {rn rd : RegNum} {rm : Option RegNum} {a : Addressing}
    {e : Result} (runs : Runs i s) (meaning : exec i s = guarded i s (evenOnly a e)) (even : bitAt a.addr 0 = false)
    (restricted : i.restriction = restrictHs ix rn rd rm) : exec i s = e ∧ TransferRegs ix.writesBack true rn rd := by
  rw [evenOnly_even e even] at meaning
  exact hsTransfer_of_runs runs meaning restricted

section rows
variable {c : Cond} {u : Bool} {rn rd : RegNum} {s : State}

theorem ldrRow_of_runs {ix : LsIndex} {o : LsOffset} (runs : Runs (ldrRow c ix u rn rd o) s) :
    exec (ldrRow c ix u rn rd o) s = loadOp loadWord rn rd (lsAddressing ix.p u ix.writesBack rn o s) s ∧
      TransferRegs ix.writesBack false rn rd := by
  cases ix <;> cases o <;> exact transfer_of_runs runs rfl rfl

theorem strRow_of_runs {ix : LsIndex} {o : LsOffset} (runs : Runs (strRow c ix u rn rd o) s) :
    exec (strRow c ix u rn rd o) s =
        storeOp storeWord rn (s.storedReg rd) (lsAddressing ix.p u ix.writesBack rn o s) s ∧
      TransferRegs ix.writesBack false rn rd := by
  cases ix <;> cases o <;> exact transfer_of_runs runs rfl rfl

theorem ldrbRow_of_runs {ix : LsIndex} {o : LsOffset} (runs : Runs (ldrbRow c ix u rn rd o) s) :
    exec (ldrbRow c ix u rn rd o) s = loadOp loadByte rn rd (lsAddressing ix.p u ix.writesBack rn o s) s ∧
      TransferRegs ix.writesBack true rn rd := by
  cases ix <;> cases o <;> exact transfer_of_runs runs rfl rfl

theorem strbRow_of_runs {ix : LsIndex} {o : LsOffset} (runs : Runs (strbRow c ix u rn rd o) s) :
    exec (strbRow c ix u rn rd o) s = storeOp storeByte rn (s.reg rd) (lsAddressing ix.p u ix.writesBack rn o s) s ∧
      TransferRegs ix.writesBack true rn rd := by
  cases ix <;> cases o <;> exact transfer_of_runs runs rfl rfl

variable {ix : HsIndex} {o : HsOffset}

theorem ldrhRow_of_runs (runs : Runs (ldrhRow c ix u rn rd o) s) (even : bitAt (hsAddressing ix u rn o s).addr 0 = false) :
    exec (ldrhRow c ix u rn rd o) s = loadOp loadHalf rn rd (hsAddressing ix u rn o s) s ∧
      TransferRegs ix.writesBack true rn rd := by
  cases o <;> exact evenTransfer_of_runs runs (exec_ldrhRow ..) even rfl

theorem ldrshRow_of_runs (runs : Runs (ldrshRow c ix u rn rd o) s) (even : bitAt (hsAddressing ix u rn o s).addr 0 = false) :
    exec (ldrshRow c ix u rn rd o) s = loadOp loadSignedHalf rn rd (hsAddressing ix u rn o s) s ∧
      TransferRegs ix.writesBack true rn rd := by
  cases o <;> exact evenTransfer_of_runs runs (exec_ldrshRow ..) even rfl

theorem strhRow_of_runs (runs : Runs (strhRow c ix u rn rd o) s) (even : bitAt (hsAddressing ix u rn o s).addr 0 = false) :
    exec (strhRow c ix u rn rd o) s = storeOp storeHalf rn (s.reg rd) (hsAddressing ix u rn o s) s ∧
      TransferRegs ix.writesBack true rn rd := by
  cases o <;> exact evenTransfer_of_runs runs (exec_strhRow ..) even rfl

theorem ldrsbRow_of_runs (runs : Runs (ldrsbRow c ix u rn rd o) s) :
    exec (ldrsbRow c ix u rn rd o) s = loadOp loadSignedByte rn rd (hsAddressing ix u rn o s) s ∧
      TransferRegs ix.writesBack true rn rd := by
  cases o <;> exact hsTransfer_of_runs runs rfl rfl

end rows

/-! What they give a swap (R198). -/

theorem data_ne_pc_of_restrictSwp {rn rd rm : RegNum} (h : restrictSwp rn rd rm = none) : rd ≠ pcNum := by
  simp only [restrictSwp, firstBroken_cons_none] at h
  obtain ⟨hpc, -⟩ := h
  rintro rfl
  simp at hpc

section swaps
variable {c : Cond} {rn rd rm : RegNum} {s : State}

theorem swp_of_runs (runs : Runs (.swp c rn rd rm) s) :
    exec (.swp c rn rd rm) s = swapOp loadWord storeWord rn rd rm s ∧ rd ≠ pcNum :=
  ⟨guarded_of_runs runs _, data_ne_pc_of_restrictSwp runs.restriction_none⟩

theorem swpb_of_runs (runs : Runs (.swpb c rn rd rm) s) :
    exec (.swpb c rn rd rm) s = swapOp loadByte storeByte rn rd rm s ∧ rd ≠ pcNum :=
  ⟨guarded_of_runs runs _, data_ne_pc_of_restrictSwp runs.restriction_none⟩

end swaps

/-! The loads and stores where the bytes exist (R64, R184 to R192). -/

/-- The rotation of R64 counts bits 1:0 of the address. -/
theorem toNat_lowBits (a : Word) : (field a 0 2).toNat = a.toNat % 4 := by simp [field, BitVec.extractLsb'_toNat]

section exist
variable {s : State} {a : Word}

theorem loadWord_exists (h : s.accessExists (alignWord a) .word = true) : loadWord s a =
    some ((s.readValue (alignWord a) .word).rotateRight (8 * (a.toNat % 4)), s.afterRead (alignWord a) .word) := by
  rw [loadWord, memRead_exists h, toNat_lowBits]; rfl

theorem loadSignedByte_exists (h : s.accessExists a .byte = true) : loadSignedByte s a =
    some (((s.readValue a .byte).setWidth 8).signExtend 32, s.afterRead a .byte) := by
  rw [loadSignedByte, memRead_exists h]; rfl

theorem loadSignedHalf_exists (h : s.accessExists a .half = true) : loadSignedHalf s a =
    some (((s.readValue a .half).setWidth 16).signExtend 32, s.afterRead a .half) := by
  rw [loadSignedHalf, memRead_exists h]; rfl

end exist

/-! A load or a store that does not abort. -/

theorem finishReg_register {d : RegNum} {v : Word} {s : State} (hd : d ≠ pcNum) (below : s.pc < 0xFFFFFFFC#32) :
    finishReg d v s = .next ((s.setPReg (bank s.mode d) v).setPc (s.pc + 4#32)) := by
  rw [finishReg, if_neg hd, State.setReg_of_ne _ _ hd]
  exact advance_eq (s := s.setPReg _ _) below

theorem finishReg_pcNum (v : Word) (s : State) : finishReg pcNum v s = .next (s.branchTo (alignWord v)) := by
  rw [finishReg, if_pos rfl, State.setReg_pcNum]

section transfer
variable {i : Instr} {s : State} {rn rd : RegNum} {wb narrow : Bool} {addr : Addressing} {a v : Word} {n : AccessSize}

/-- A load of a value: the base, then Rd or the jump (R184, R185). -/
theorem exec_loaded {ld : Load} (row : exec i s = loadOp ld rn rd addr s ∧ TransferRegs wb narrow rn rd)
    (read : ld s addr.addr = some (v, s.afterRead a n)) (written : addr.writeback.isSome = wb)
    (follows : Follows s (rd == pcNum)) : ∃ t, exec i s = .next t ∧ Loaded s t rn rd wb addr a n v := by
  subst written
  obtain ⟨meaning, regs⟩ := row
  have op : exec i s = finishReg rd v ((s.afterRead a n).writeBase rn addr) := by rw [meaning, loadOp, read]
  have accessed : OnlyChanges s (s.afterRead a n) [] [] := (OnlyChanges.refl s).afterRead a n
  have frame := accessed.writeBase regs.base
  have base : BaseWritten s ((s.afterRead a n).writeBase rn addr) rn addr :=
    baseWritten_writeBase accessed.mode regs.base
  have pc : ((s.afterRead a n).writeBase rn addr).pc = s.pc :=
    (State.writeBase_pc_eq regs.base).trans (State.afterRead_pc ..)
  have flags : SameFlags s ((s.afterRead a n).writeBase rn addr) := by
    rw [SameFlags, State.writeBase_cpsr, State.afterRead_cpsr]
  have io : ((s.afterRead a n).writeBase rn addr).io = s.ioAfterRead a n :=
    (State.writeBase_io ..).trans (State.afterRead_io ..)
  rw [op]
  by_cases hd : rd = pcNum
  · subst hd
    refine ⟨_, finishReg_pcNum .., ?_, base, frame.branchTo _, flags, io⟩
    rw [if_pos rfl]
    exact ⟨rfl, rfl⟩
  · have below : s.pc < 0xFFFFFFFC#32 := follows.resolve_left (by simp [hd])
    refine ⟨_, finishReg_register hd (by rwa [pc]), ?data, ?base, ?frame, flags, io⟩
    case data =>
      rw [if_neg hd, frame.mode, pc]
      exact ⟨(State.setPReg_preg ..).trans (if_pos rfl), rfl⟩
    case base =>
      intro w hw
      have wb : addr.writeback.isSome = true := by simp [hw]
      have apart : bank s.mode rd ≠ bank s.mode rn := (bank_inj _ hd (regs.base wb)).not.2 (regs.apart wb)
      rw [frame.mode]
      exact ((State.setPReg_preg ..).trans (if_neg apart)).trans (base w hw)
    case frame =>
      rw [if_neg hd, frame.mode]
      exact (frame.setPReg _ _).setPc _

/-- A store of a value: the bytes, then the base (R186, R188, R190). -/
theorem exec_stored {st : Store} (row : exec i s = storeOp st rn v addr s ∧ TransferRegs wb narrow rn rd)
    (write : st s addr.addr v = some (s.afterWrite a n v)) (written : addr.writeback.isSome = wb)
    (below : s.pc < 0xFFFFFFFC#32) : ∃ t, exec i s = .next t ∧ Stored s t rn wb addr a n v := by
  subst written
  obtain ⟨meaning, regs⟩ := row
  have op : exec i s = advance ((s.afterWrite a n v).writeBase rn addr) := by rw [meaning, storeOp, write]
  have accessed := (OnlyChanges.refl s).afterWrite a n v
  have pc : ((s.afterWrite a n v).writeBase rn addr).pc = s.pc :=
    (State.writeBase_pc_eq regs.base).trans (State.afterWrite_pc ..)
  have flags : SameFlags s ((s.afterWrite a n v).writeBase rn addr) := by
    rw [SameFlags, State.writeBase_cpsr, State.afterWrite_cpsr]
  refine ⟨_, op.trans (advance_eq (by rwa [pc])), congrArg (· + 4#32) pc, ?stored,
    baseWritten_writeBase accessed.mode regs.base, (accessed.writeBase regs.base).setPc _, flags⟩
  case stored => exact (s.afterWrite_storedAt a n v).congr (State.writeBase_mem ..) (State.writeBase_io ..)

end transfer

/-- Settles O19: a word load, whose Rd may be R15. -/
theorem loadWordInstructions : Obligations.LoadWordInstructions := by
  rintro c ix u rn rd o s a rfl runs present follows
  exact exec_loaded (ldrRow_of_runs runs) (loadWord_exists present) (lsAddressing_writeback ..) follows

/-- Settles O20: a byte load. -/
theorem loadByteInstructions : Obligations.LoadByteInstructions := by
  rintro c ix u rn rd o s a rfl runs present below
  exact exec_loaded (ldrbRow_of_runs runs) (memRead_exists present) (lsAddressing_writeback ..) (.inr below)

/-- Settles O21: the three loads differ in the access and the extension alone. -/
theorem loadHalfAndSignedInstructions : Obligations.LoadHalfAndSignedInstructions := by
  rintro c ix u rn rd o s a rfl below
  refine ⟨fun runs present even => ?ldrh, fun runs present even => ?ldrsh, fun runs present => ?ldrsb⟩
  case ldrh =>
    exact exec_loaded (ldrhRow_of_runs runs even) (memRead_exists present) (hsAddressing_writeback ..) (.inr below)
  case ldrsh =>
    exact exec_loaded (ldrshRow_of_runs runs even) (loadSignedHalf_exists present) (hsAddressing_writeback ..) (.inr below)
  case ldrsb =>
    exact exec_loaded (ldrsbRow_of_runs runs) (loadSignedByte_exists present) (hsAddressing_writeback ..) (.inr below)

/-- What STR stores: R15 as the instruction's address plus 12 (R186, log 32). -/
theorem State.storedReg_eq (s : State) (i : RegNum) :
    s.storedReg i = if i = pcNum then s.pc + 12#32 else s.preg (bank s.mode i) :=
  if_ctx_congr Iff.rfl (fun _ => rfl) fun hi => s.reg_of_ne hi

/-- Settles O22: a word store, at the aligned address. -/
theorem storeWordInstructions : Obligations.StoreWordInstructions := by
  rintro c ix u rn rd o s a rfl runs present below
  rw [← State.storedReg_eq]
  exact exec_stored (strRow_of_runs runs) (memWrite_exists present) (lsAddressing_writeback ..) below

/-- Settles O23: Rd is not R15, and the access keeps its low bytes. -/
theorem storeNarrowInstructions : Obligations.StoreNarrowInstructions := by
  constructor
  · rintro c ix u rn rd o s a rfl runs present below
    obtain ⟨meaning, regs⟩ := strbRow_of_runs runs
    rw [← s.reg_of_ne (regs.data rfl)]
    exact exec_stored ⟨meaning, regs⟩ (memWrite_exists present) (lsAddressing_writeback ..) below
  · rintro c ix u rn rd o s a rfl runs present even below
    obtain ⟨meaning, regs⟩ := strhRow_of_runs runs even
    rw [← s.reg_of_ne (regs.data rfl)]
    exact exec_stored ⟨meaning, regs⟩ (memWrite_exists present) (hsAddressing_writeback ..) below

/-! Transfers and swaps of absent addresses (R71, R183, R263). -/

/-- An exception entered after general registers changed is one from the state before, those registers written (R183, R256). -/
theorem Entered.of_sameRegs {s u t : State} {e : Exc} {regs : List PReg} (h : Entered u t e [] [])
    (changed : OnlyChanges s u regs []) (pc : u.pc = s.pc) (cpsr : u.cpsr = s.cpsr) : Entered s t e regs [] := by
  obtain ⟨sameRegs, sameBytes, sameSpsr, -, inputs, platform⟩ := changed
  obtain ⟨link, saved, otherSpsr, mode, thumb, irq, fiq, flags, reserved, vector, pipe, hregs, hbytes, hinputs,
    hplatform⟩ := h
  rw [State.thumb, cpsr, ← State.thumb, pc] at link
  rw [cpsr, platform] at fiq
  rw [cpsr] at reserved
  rw [SameFlags, cpsr] at flags
  rw [cpsr] at saved
  refine ⟨link, saved, fun k hk => (otherSpsr k hk).trans (sameSpsr k List.not_mem_nil), mode, thumb, irq, fiq, flags,
    reserved, vector, pipe, fun p hp => ?regs, fun b hb => (hbytes b hb).trans (sameBytes b hb), hinputs.trans inputs,
    hplatform.trans platform⟩
  case regs =>
    rw [List.mem_cons, not_or] at hp
    obtain ⟨other, unlisted⟩ := hp
    exact (hregs p (by simpa using other)).trans (sameRegs p unlisted)

section absent
variable {i : Instr} {s : State} {rn rd : RegNum} {wb narrow : Bool} {addr : Addressing}

/-- Data Abort is entered after the write-back, or without it (R183). -/
theorem abortTransfer_aborted (written : addr.writeback.isSome = wb) (regs : TransferRegs wb narrow rn rd) :
    ∃ t, abortTransfer rn addr s = .next t ∧ Aborted s t rn wb addr ∧ t.io = s.io := by
  subst written
  refine ⟨_, rfl, ?_⟩
  cases updated : s.platform.abortBaseUpdated with
  | false =>
    rw [Aborted, updated, if_neg Bool.false_ne_true, if_neg Bool.false_ne_true]
    exact ⟨⟨entered_takeException s .dataAbort, nofun⟩, State.takeException_io ..⟩
  | true =>
    rw [Aborted, updated, if_pos rfl, if_pos rfl]
    refine ⟨⟨?entered, fun _ unlinked v hv => ?base⟩, (State.takeException_io ..).trans (State.writeBase_io ..)⟩
    case entered =>
      exact (entered_takeException _ .dataAbort).of_sameRegs ((OnlyChanges.refl s).writeBase regs.base)
        (State.writeBase_pc_eq regs.base) (State.writeBase_cpsr ..)
    case base =>
      have other : bank Exc.dataAbort.mode 14#4 ≠ bank s.mode rn := Ne.symm unlinked
      rw [State.takeException_preg, if_neg other]
      exact baseWritten_writeBase rfl regs.base v hv

theorem exec_load_aborted {ld : Load} (row : exec i s = loadOp ld rn rd addr s ∧ TransferRegs wb narrow rn rd)
    (absent : ld s addr.addr = none) (written : addr.writeback.isSome = wb) :
    ∃ t, exec i s = .next t ∧ Aborted s t rn wb addr ∧ t.io = s.io := by
  obtain ⟨meaning, regs⟩ := row
  rw [meaning, loadOp, absent]
  exact abortTransfer_aborted written regs

theorem exec_store_aborted {st : Store} {v : Word} (row : exec i s = storeOp st rn v addr s ∧ TransferRegs wb narrow rn rd)
    (absent : st s addr.addr v = none) (written : addr.writeback.isSome = wb) :
    ∃ t, exec i s = .next t ∧ Aborted s t rn wb addr ∧ t.io = s.io := by
  obtain ⟨meaning, regs⟩ := row
  rw [meaning, storeOp, absent]
  exact abortTransfer_aborted written regs

theorem exec_swap_aborted {ld : Load} {st : Store} {rm : RegNum} (row : exec i s = swapOp ld st rn rd rm s ∧ rd ≠ pcNum)
    (absent : ld s (s.reg rn) = none) : ∃ t, exec i s = .next t ∧ Entered s t .dataAbort [] [] ∧ t.io = s.io := by
  obtain ⟨meaning, -⟩ := row
  rw [meaning, swapOp, absent]
  exact ⟨_, rfl, entered_takeException s .dataAbort, State.takeException_io ..⟩

end absent

section absentLoads
variable {s : State} {a : Word}

theorem loadWord_absent (h : s.accessExists (alignWord a) .word = false) : loadWord s a = none := by
  rw [loadWord, memRead_absent h]; rfl

theorem loadSignedByte_absent (h : s.accessExists a .byte = false) : loadSignedByte s a = none := by
  rw [loadSignedByte, memRead_absent h]; rfl

theorem loadSignedHalf_absent (h : s.accessExists a .half = false) : loadSignedHalf s a = none := by
  rw [loadSignedHalf, memRead_absent h]; rfl

end absentLoads

/-- Settles O25: each transfer finds no access at its address, and a swap aborts at its read already. -/
theorem transfersAbort : Obligations.TransfersAbort := by
  refine ⟨?ls, ?hs, ?swap⟩
  case ls =>
    rintro c ix u rn rd o s a i rfl runs (⟨rfl | rfl, absent⟩ | ⟨rfl | rfl, absent⟩)
    · exact exec_load_aborted (ldrRow_of_runs runs) (loadWord_absent absent) (lsAddressing_writeback ..)
    · exact exec_store_aborted (strRow_of_runs runs) (memWrite_absent absent) (lsAddressing_writeback ..)
    · exact exec_load_aborted (ldrbRow_of_runs runs) (memRead_absent absent) (lsAddressing_writeback ..)
    · exact exec_store_aborted (strbRow_of_runs runs) (memWrite_absent absent) (lsAddressing_writeback ..)
  case hs =>
    rintro c ix u rn rd o s a i rfl runs (⟨rfl | rfl | rfl, even, absent⟩ | ⟨rfl, absent⟩)
    · exact exec_load_aborted (ldrhRow_of_runs runs even) (memRead_absent absent) (hsAddressing_writeback ..)
    · exact exec_load_aborted (ldrshRow_of_runs runs even) (loadSignedHalf_absent absent) (hsAddressing_writeback ..)
    · exact exec_store_aborted (strhRow_of_runs runs even) (memWrite_absent absent) (hsAddressing_writeback ..)
    · exact exec_load_aborted (ldrsbRow_of_runs runs) (loadSignedByte_absent absent) (hsAddressing_writeback ..)
  case swap =>
    rintro c rn rd rm s i runs (⟨rfl, absent⟩ | ⟨rfl, absent⟩)
    · exact exec_swap_aborted (swp_of_runs runs) (loadWord_absent absent)
    · exact exec_swap_aborted (swpb_of_runs runs) (memRead_absent absent)

/-! Swaps that do not abort (R198). -/

/-- The read, the write at the same address, then Rd (R76, R198). -/
theorem exec_swapped {i : Instr} {ld : Load} {st : Store} {rn rd rm : RegNum} {s : State} {a v : Word} {n : AccessSize}
    (row : exec i s = swapOp ld st rn rd rm s ∧ rd ≠ pcNum) (below : s.pc < 0xFFFFFFFC#32)
    (read : ld s (s.reg rn) = some (v, s.afterRead a n))
    (write : st (s.afterRead a n) (s.reg rn) (s.reg rm) = some ((s.afterRead a n).afterWrite a n (s.reg rm))) :
    ∃ t, exec i s = .next t ∧ t.pc = s.pc + 4#32 ∧ t.preg (bank s.mode rd) = v ∧
      (if s.accessDevice a n then SameBytes s t [] ∧ t.io = .write a n (s.reg rm &&& sizeMask n) :: .read a n :: s.io
        else StoredAt s t a n (s.reg rm)) ∧
      OnlyChanges s t [bank s.mode rd] (accessAddrs a n) ∧ SameFlags s t := by
  obtain ⟨meaning, hd⟩ := row
  have op : exec i s = finishReg rd v ((s.afterRead a n).afterWrite a n (s.reg rm)) := by
    simp only [meaning, swapOp, read, write]
  have frame := ((OnlyChanges.refl s).afterRead a n).afterWrite a n (s.reg rm)
  have pc : ((s.afterRead a n).afterWrite a n (s.reg rm)).pc = s.pc := by rw [State.afterWrite_pc, State.afterRead_pc]
  have flags : SameFlags s ((s.afterRead a n).afterWrite a n (s.reg rm)) := by
    rw [SameFlags, State.afterWrite_cpsr, State.afterRead_cpsr]
  have next := op.trans (finishReg_register hd (by rwa [pc]))
  rw [frame.mode, pc] at next
  refine ⟨_, next, rfl, (State.setPReg_preg ..).trans (if_pos rfl), ?stored, (frame.setPReg _ _).setPc _, flags⟩
  case stored =>
    cases device : s.accessDevice a n with
    | false =>
      have unread : s.afterRead a n = s := if_neg (by simp [device])
      rw [if_neg Bool.false_ne_true, unread]
      exact (s.afterWrite_storedAt a n (s.reg rm)).congr rfl rfl
    | true =>
      have recorded : (s.afterRead a n).afterWrite a n (s.reg rm) =
          (s.addIo (.read a n)).addIo (.write a n (s.reg rm &&& sizeMask n)) := by
        simp [State.afterRead, State.afterWrite, device]
      rw [if_pos rfl, recorded]
      exact ⟨fun _ _ => rfl, rfl⟩

/-- Settles O26: the word and the byte swap are one read and one write each, of the same address. -/
theorem swapInstructions : Obligations.SwapInstructions := by
  refine fun c rn rd rm s below => ⟨?swp, ?swpb⟩
  case swp =>
    rintro a rfl runs present
    have whole : s.reg rm &&& sizeMask .word = s.reg rm := BitVec.and_allOnes
    have swapped := exec_swapped (swp_of_runs runs) below (loadWord_exists present)
      (memWrite_exists ((State.afterRead_accessExists ..).trans present))
    rwa [whole] at swapped
  case swpb =>
    rintro a rfl runs present
    exact exec_swapped (swpb_of_runs runs) below (memRead_exists present)
      (memWrite_exists ((State.afterRead_accessExists ..).trans present))

end Sys2Proof.Machine

/-! Block transfers (R211 to R217): the registers of a list and the addresses of their words. -/

namespace Sys2Proof.Machine

/-! The registers of a list and the addresses of a block transfer (R211, R212). -/

/-- A register is listed exactly when its bit is set (R211). -/
theorem mem_regList {list : BitVec 16} {i : RegNum} : i ∈ regList list ↔ list.getLsbD i.toNat = true := by
  have everyNumber : i ∈ [0#4, 1#4, 2#4, 3#4, 4#4, 5#4, 6#4, 7#4, 8#4, 9#4, 10#4, 11#4, 12#4, 13#4, 14#4, 15#4] := by
    revert i; decide
  rw [regList, List.mem_filter, and_iff_right everyNumber]

theorem regList_pairwise_lt (list : BitVec 16) : (regList list).Pairwise fun i j => i.toNat < j.toNat :=
  List.Pairwise.filter _ (by decide)

theorem regList_length_le (list : BitVec 16) : (regList list).length ≤ 16 := List.length_filter_le ..

/-- A list with a bit set names a register. -/
theorem regList_ne_nil {list : BitVec 16} (h : list ≠ 0#16) : regList list ≠ [] := by
  refine fun none => h (BitVec.eq_of_getLsbD_eq fun i hi => ?_)
  have unlisted : BitVec.ofNat 4 i ∉ regList list := none ▸ List.not_mem_nil
  rw [mem_regList, BitVec.toNat_ofNat, Nat.mod_eq_of_lt hi, Bool.not_eq_true] at unlisted
  rw [unlisted, BitVec.getLsbD_zero]

theorem mem_listedRegs {m : Mode} {list : BitVec 16} {q : PReg} :
    q ∈ listedRegs m list ↔ ∃ i ∈ regList list, i ≠ pcNum ∧ bank m i = q := by
  simp [listedRegs, and_assoc]

/-- The lowest address is the one of its row in the table (R211, R212). -/
theorem blockStart_eq_blockLowest (p u : Bool) (base : Word) (cnt : Nat) :
    blockStart p u base cnt = blockLowest p u base cnt := by cases p <;> cases u <;> rfl

section addressing
variable (p u w : Bool) (n : RegNum) (list : BitVec 16) (s : State)

theorem blockAddressing_writeback : (blockAddressing p u w n list s).writeback.isSome = w := by cases w <;> rfl

theorem blockTargets_getElem? {k : Nat} (hk : k < (regList list).length) :
    (blockTargets p u w n list s)[k]? =
      some (alignWord (blockStart p u (s.reg n) (regList list).length + BitVec.ofNat 32 (4 * k))) := by
  simp [blockTargets, blockAddrs, blockAddressing, hk]

end addressing

/-- Settles O36: the list is a sorted filter of all numbers, and the addresses count up in words from the lowest. -/
theorem blockAddresses : Obligations.BlockAddresses := by
  refine ⟨fun _ _ => mem_regList, regList_pairwise_lt, ?_⟩
  rintro p u w rn list s cnt rfl
  refine ⟨blockTargets_length .., fun k hk => ?_, rfl⟩
  rw [← blockStart_eq_blockLowest]
  exact blockTargets_getElem? p u w rn list s hk

/-! The words of a block transfer do not overlap. -/

/-- Bits 1:0 cleared: the multiple of four below (R28, R64). -/
theorem toNat_alignWord (v : Word) : (alignWord v).toNat = v.toNat / 4 * 4 := by
  have shifts : alignWord v = (v >>> 2) <<< 2 := by
    refine BitVec.eq_of_getLsbD_eq fun i hi => ?_
    simp only [alignWord, BitVec.getLsbD_and, BitVec.getLsbD_shiftLeft, BitVec.getLsbD_ushiftRight]
    interval_cases i <;> simp
  have := v.isLt
  rw [shifts, toNat_shiftLeft_eq, toNat_shiftRight_eq]
  omega

/-- The bytes of an aligned word do not wrap around the top of the address space. -/
theorem byteAddr_alignWord (v : Word) {j : Nat} (hj : j < 4) : byteAddr (alignWord v) j = v.toNat / 4 * 4 + j := by
  have := v.isLt
  rw [byteAddr, BitVec.toNat_add, toNat_alignWord, BitVec.toNat_ofNat]
  omega

/-- Two words of addresses share no byte. -/
def WordsApart (a b : Word) : Prop := ∀ x ∈ accessAddrs a .word, x ∉ accessAddrs b .word

theorem WordsApart.not_mem {a b : Word} (h : WordsApart a b) {j : Nat} (hj : j < 4) : byteAddr b j ∉ accessAddrs a .word :=
  fun inside => h _ inside (mem_accessAddrs.2 ⟨j, hj, rfl⟩)

/-- Aligned words at different multiples of four share no byte. -/
theorem wordsApart_alignWord {v w : Word} (h : v.toNat / 4 ≠ w.toNat / 4) : WordsApart (alignWord v) (alignWord w) := by
  intro x hx hx'
  obtain ⟨j, hj, rfl⟩ := mem_accessAddrs.1 hx
  obtain ⟨k, hk, same⟩ := mem_accessAddrs.1 hx'
  simp only [AccessSize.bytes] at hj hk
  rw [byteAddr_alignWord v hj, byteAddr_alignWord w hk] at same
  omega

/-- The addresses of a block transfer are at most sixteen words apart, so none comes around again (R66, R211). -/
theorem blockTargets_apart (p u w : Bool) (n : RegNum) (list : BitVec 16) (s : State) :
    (blockTargets p u w n list s).Pairwise WordsApart := by
  rw [blockTargets, blockAddrs, List.pairwise_map]
  refine List.pairwise_lt_range.imp_of_mem fun hj hk hjk => wordsApart_alignWord ?_
  have := regList_length_le list
  rw [List.mem_range] at hj hk
  rw [BitVec.toNat_add, BitVec.toNat_add, BitVec.toNat_ofNat, BitVec.toNat_ofNat]
  omega

end Sys2Proof.Machine

/-! Block transfers: the walks over lists, and what they leave unchanged. -/

namespace Sys2Proof.Machine

/-! The frame `OnlyChanges`, of one part of an instruction after another. -/

/-- Two parts change what either of them changes. -/
theorem OnlyChanges.trans {s u v : State} {regs regs' : List PReg} {bytes bytes' : List Nat}
    (first : OnlyChanges s u regs bytes) (second : OnlyChanges u v regs' bytes') :
    OnlyChanges s v (regs ++ regs') (bytes ++ bytes') := by
  obtain ⟨hregs, hbytes, hspsr, hcontrol, hinputs, hplatform⟩ := first
  obtain ⟨hregs', hbytes', hspsr', hcontrol', hinputs', hplatform'⟩ := second
  refine ⟨fun q hq => ?_, fun b hb => ?_, fun k hk => (hspsr' k hk).trans (hspsr k hk), hcontrol'.trans hcontrol,
    hinputs'.trans hinputs, hplatform'.trans hplatform⟩
  · rw [List.mem_append, not_or] at hq
    exact (hregs' q hq.2).trans (hregs q hq.1)
  · rw [List.mem_append, not_or] at hb
    exact (hbytes' b hb.2).trans (hbytes b hb.1)

theorem SameButMemory.onlyChanges {s u : State} {bytes : List Nat} (h : SameButMemory s u) (same : SameBytes s u bytes) :
    OnlyChanges s u [] bytes := by
  have hregs := h.preg
  obtain ⟨-, -, hcpsr, hspsr, -, -, hinputs, -, hplatform⟩ := h
  exact ⟨fun q _ => hregs q, same, fun k _ => by rw [hspsr], by rw [SameControl, hcpsr], hinputs, hplatform⟩

theorem OnlyRegs.onlyChanges {s u : State} {regs : List PReg} (h : OnlyRegs s u) (same : SameRegs s u regs) :
    OnlyChanges s u regs [] := by
  obtain ⟨-, hcpsr, hspsr, hmem, -, -, hinputs, -, hplatform⟩ := h
  exact ⟨same, fun b _ => by rw [hmem], fun k _ => by rw [hspsr], by rw [SameControl, hcpsr], hinputs, hplatform⟩

/-! Reading the words of a block (R211). -/

section readBlock
variable {s : State} {l : List Word}

theorem readBlock_onlyChanges (l : List Word) (s : State) : OnlyChanges s (readBlock l s).2 [] [] := by
  obtain ⟨same, mem⟩ := readBlock_state l s
  exact same.onlyChanges fun b _ => by rw [mem]

theorem readBlock_cons_exists {a : Word} (h : s.accessExists a .word = true) : readBlock (a :: l) s =
    ((readBlock l (s.afterRead a .word)).1.map (s.readValue a .word :: ·), (readBlock l (s.afterRead a .word)).2) := by
  rw [readBlock, memRead_exists h]

theorem readBlock_cons_absent {a : Word} (h : s.accessExists a .word = false) : readBlock (a :: l) s = (none, s) := by
  rw [readBlock, memRead_absent h]

/-- A block read ends with its words exactly when every address exists (R71). -/
theorem readBlock_isSome_iff (l : List Word) (s : State) : (readBlock l s).1.isSome = true ↔ AllExist s l := by
  induction l generalizing s with
  | nil => simp [readBlock, AllExist]
  | cons a l ih =>
    cases present : s.accessExists a .word with
    | false => simp [readBlock_cons_absent present, AllExist, present]
    | true => simp [readBlock_cons_exists present, AllExist, present, ih]

/-- Without a device the words are memory's (R61). -/
theorem readBlock_memory (present : AllExist s l) (memory : ∀ a ∈ l, s.accessDevice a .word = false) :
    readBlock l s = (some (l.map fun a => s.mem.readSize a .word), s) := by
  induction l with
  | nil => rfl
  | cons a l ih =>
    obtain ⟨exists_a, present⟩ := List.forall_mem_cons.1 present
    obtain ⟨memory_a, memory⟩ := List.forall_mem_cons.1 memory
    have unread : s.afterRead a .word = s := if_neg (by simp [memory_a])
    have value : s.readValue a .word = s.mem.readSize a .word := if_neg (by simp [memory_a])
    rw [readBlock_cons_exists exists_a, unread, value, ih present memory]
    rfl

/-- A block read of addresses that exist. -/
theorem readBlock_of_allExist (present : AllExist s l) :
    ∃ vals, readBlock l s = (some vals, (readBlock l s).2) ∧ BlockRead s l vals (readBlock l s).2.io := by
  obtain ⟨vals, read⟩ := Option.isSome_iff_exists.1 ((readBlock_isSome_iff l s).2 present)
  refine ⟨vals, Prod.ext read rfl, read, rfl, fun memory => ?_⟩
  rw [readBlock_memory present memory] at read ⊢
  exact ⟨(Option.some.inj read).symm, rfl⟩

/-- A block read that meets an address that does not exist. -/
theorem readBlock_of_absent (absent : ¬ AllExist s l) : readBlock l s = (none, (readBlock l s).2) := by
  rw [← readBlock_isSome_iff, Option.not_isSome_iff_eq_none] at absent
  exact Prod.ext absent rfl

end readBlock

/-! Loading the registers of a list (R213). -/

section loadRegs
variable (m : Mode) (list : BitVec 16) (vals : List Word) (s : State)

theorem loadRegs_onlyChanges : OnlyChanges s (loadRegs m ((regList list).zip vals) s) (listedRegs m list) [] := by
  refine (loadRegs_onlyRegs ..).onlyChanges fun q unlisted => loadRegs_preg_other _ _ _ _ fun c hc hpc same => ?_
  exact unlisted (mem_listedRegs.2 ⟨c.1, (List.of_mem_zip hc).1, hpc, same⟩)

theorem scrambleRegs_onlyChanges (base : PReg) :
    OnlyChanges s (scrambleRegs m base (regList list) s) (listedRegs m list) [] := by
  refine (scrambleRegs_onlyRegs ..).onlyChanges fun q unlisted => scrambleRegs_preg _ _ _ _ _ (.inr fun i hi hpc same => ?_)
  exact unlisted (mem_listedRegs.2 ⟨i, hi, hpc, same⟩)

/-- No register is named twice in a list, whatever the words beside it. -/
theorem regList_zip_pairwise_ne : ((regList list).zip vals).Pairwise fun c d => c.1 ≠ d.1 := by
  refine List.pairwise_iff_getElem.2 fun j k hj hk hjk same => ?_
  rw [List.getElem_zip, List.getElem_zip] at same
  have lt := List.pairwise_iff_getElem.1 (regList_pairwise_lt list) j k (by simp at hj; omega) (by simp at hk; omega) hjk
  exact lt.ne (congrArg BitVec.toNat same)

theorem loadRegs_listLoaded : ListLoaded (loadRegs m ((regList list).zip vals) s) m list vals := fun _ _ _ hi hv hpc =>
  loadRegs_preg_same m _ s (regList_zip_pairwise_ne ..) (List.mem_of_getElem? (List.getElem?_zip_eq_some.2 ⟨hi, hv⟩)) hpc

end loadRegs

/-! Writing the words of a block (R211): each at its own bytes, up to the first address that does not exist. -/

section writeBlock
variable {s : State} {l : List (Word × Word)} {a v : Word}

@[simp] theorem State.afterWrite_accessExists (s : State) (a v b : Word) (n k : AccessSize) :
    (s.afterWrite a n v).accessExists b k = s.accessExists b k := by unfold State.afterWrite; split <;> rfl
@[simp] theorem State.afterWrite_accessDevice (s : State) (a v b : Word) (n k : AccessSize) :
    (s.afterWrite a n v).accessDevice b k = s.accessDevice b k := by unfold State.afterWrite; split <;> rfl

theorem State.afterWrite_read_other (s : State) (a v : Word) {n : AccessSize} {b : Nat} (outside : b ∉ accessAddrs a n) :
    (s.afterWrite a n v).mem.read b = s.mem.read b := by
  obtain ⟨-, bytes, -⟩ := (OnlyChanges.refl s).afterWrite a n v
  exact bytes b outside

/-- The word written is there, or its address is a device's (R61, R69). -/
theorem State.afterWrite_wordStored (s : State) (a v : Word) : WordStored s (s.afterWrite a .word v) a v := by
  intro j hj
  have stored := s.afterWrite_storedAt a .word v
  cases device : s.accessDevice a .word with
  | false =>
    rw [StoredAt, if_neg (by simp [device])] at stored
    exact stored.1 j hj
  | true =>
    rw [StoredAt, if_pos device] at stored
    exact stored.1 _ List.not_mem_nil

theorem writeBlock_cons_exists (h : s.accessExists a .word = true) :
    writeBlock ((a, v) :: l) s = writeBlock l (s.afterWrite a .word v) := by
  rw [writeBlock, memWrite_exists h]

theorem writeBlock_cons_absent (h : s.accessExists a .word = false) : writeBlock ((a, v) :: l) s = (false, s) := by
  rw [writeBlock, memWrite_absent h]

/-- A block write ends exactly when every address exists (R71). -/
theorem writeBlock_fst_iff (l : List (Word × Word)) (s : State) :
    (writeBlock l s).1 = true ↔ AllExist s (l.map Prod.fst) := by
  induction l generalizing s with
  | nil => simp [writeBlock, AllExist]
  | cons c l ih =>
    obtain ⟨a, v⟩ := c
    cases present : s.accessExists a .word with
    | false => simp [writeBlock_cons_absent present, AllExist, present]
    | true => simp [writeBlock_cons_exists present, ih, AllExist, present]

/-- No byte outside the block is written. -/
theorem writeBlock_sameBytes (l : List (Word × Word)) (s : State) :
    SameBytes s (writeBlock l s).2 (blockBytes (l.map Prod.fst)) := by
  induction l generalizing s with
  | nil => exact fun _ _ => rfl
  | cons c l ih =>
    obtain ⟨a, v⟩ := c
    intro b outside
    rw [List.map_cons, blockBytes, List.flatMap_cons, List.mem_append, not_or] at outside
    cases present : s.accessExists a .word with
    | false => rw [writeBlock_cons_absent present]
    | true => rw [writeBlock_cons_exists present, ih _ b outside.2, State.afterWrite_read_other s a v outside.1]

theorem writeBlock_onlyChanges (l : List (Word × Word)) (s : State) :
    OnlyChanges s (writeBlock l s).2 [] (blockBytes (l.map Prod.fst)) :=
  (writeBlock_state l s).1.onlyChanges (writeBlock_sameBytes l s)

/-- Without a device the device history stays. -/
theorem writeBlock_io (l : List (Word × Word)) (s : State) (memory : ∀ c ∈ l, s.accessDevice c.1 .word = false) :
    (writeBlock l s).2.io = s.io := by
  induction l generalizing s with
  | nil => rfl
  | cons c l ih =>
    obtain ⟨a, v⟩ := c
    obtain ⟨first, rest⟩ := List.forall_mem_cons.1 memory
    cases present : s.accessExists a .word with
    | false => rw [writeBlock_cons_absent present]
    | true =>
      have inMemory : s.afterWrite a .word v = s.setMem (s.mem.writeSize a v .word) := if_neg (by simp [first])
      rw [writeBlock_cons_exists present, ih _ (by simpa using rest), inMemory, State.setMem_io]

/-- A word apart from all addresses of the block reads as before it. -/
theorem writeBlock_read_apart (apart : ∀ b ∈ l.map Prod.fst, WordsApart a b) {j : Nat} (hj : j < 4) :
    (writeBlock l s).2.mem.read (byteAddr a j) = s.mem.read (byteAddr a j) := by
  refine writeBlock_sameBytes l s _ fun inside => ?_
  obtain ⟨b, hb, hbyte⟩ := List.mem_flatMap.1 inside
  exact apart b hb _ (mem_accessAddrs.2 ⟨j, hj, rfl⟩) hbyte

/-- A word of the block stands at its address when its address and all before it exist (R211, R217(e)). -/
theorem writeBlock_stored (apart : (l.map Prod.fst).Pairwise WordsApart) {k : Nat} (h : l[k]? = some (a, v))
    (present : AllExist s ((l.map Prod.fst).take (k + 1))) : WordStored s (writeBlock l s).2 a v := by
  induction l generalizing s k with
  | nil => cases h
  | cons c l ih =>
    obtain ⟨b, x⟩ := c
    rw [List.map_cons, List.pairwise_cons] at apart
    obtain ⟨others, apart⟩ := apart
    rw [List.map_cons, List.take_succ_cons, AllExist, List.forall_mem_cons] at present
    obtain ⟨first, present⟩ := present
    rw [writeBlock_cons_exists first]
    intro j hj
    cases k with
    | zero =>
      obtain ⟨rfl, rfl⟩ : b = a ∧ x = v := by simpa using h
      rw [writeBlock_read_apart others hj]
      exact s.afterWrite_wordStored b x j hj
    | succ k =>
      rw [List.getElem?_cons_succ] at h
      have later : WordsApart b a := others a (List.mem_map_of_mem (List.mem_of_getElem? h))
      rw [ih apart h (by simpa [AllExist] using present) j hj, State.afterWrite_accessDevice,
        State.afterWrite_read_other s b x (later.not_mem hj)]

/-- A word of the block is not written when its address or one before it does not exist (R217(e)). -/
theorem writeBlock_unreached (apart : (l.map Prod.fst).Pairwise WordsApart) {k : Nat} (h : l[k]? = some (a, v))
    (absent : ¬ AllExist s ((l.map Prod.fst).take (k + 1))) {j : Nat} (hj : j < 4) :
    (writeBlock l s).2.mem.read (byteAddr a j) = s.mem.read (byteAddr a j) := by
  induction l generalizing s k with
  | nil => cases h
  | cons c l ih =>
    obtain ⟨b, x⟩ := c
    rw [List.map_cons, List.pairwise_cons] at apart
    obtain ⟨others, apart⟩ := apart
    cases first : s.accessExists b .word with
    | false => rw [writeBlock_cons_absent first]
    | true =>
      rw [List.map_cons, List.take_succ_cons, AllExist, List.forall_mem_cons, and_iff_right first] at absent
      cases k with
      | zero => exact absurd (by simp) absent
      | succ k =>
        rw [List.getElem?_cons_succ] at h
        have later : WordsApart b a := others a (List.mem_map_of_mem (List.mem_of_getElem? h))
        rw [writeBlock_cons_exists first, ih apart h (by simpa [AllExist] using absent),
          State.afterWrite_read_other s b x (later.not_mem hj)]

end writeBlock

end Sys2Proof.Machine

/-! LDM: the operands it may have, what it loads, and how it comes to its end (R213 to R215, R217). -/

namespace Sys2Proof.Machine

/-! What the operand restrictions give, and the modes that have a User bank apart from their own (R215, R217). -/

/-- The operands of an LDM that breaks no restriction. -/
structure LdmOperands (sf w : Bool) (n : RegNum) (list : BitVec 16) : Prop where
  nonempty : list ≠ 0#16
  base : n ≠ pcNum
  /-- The base written back is not loaded. -/
  unlisted : w = true → list.getLsbD n.toNat = false
  /-- Nor is it written back when the User bank is loaded. -/
  userBank : sf = true → w = true → list.getLsbD 15 = true

theorem ldmOperands_of_restrictLdm {sf w : Bool} {n : RegNum} {list : BitVec 16} (h : restrictLdm sf w n list = none) :
    LdmOperands sf w n list := by
  have base := base_ne_pc_of_restrictLdm h
  simp only [restrictLdm, firstBroken_cons_none] at h
  obtain ⟨nonempty, -, unlisted, userBank, -⟩ := h
  refine ⟨by simpa using nonempty, base, ?_, ?_⟩
  · rintro rfl; simpa using unlisted
  · rintro rfl rfl; simpa using userBank

/-- The modes without an SPSR (R22, R36). -/
theorem State.currentSpsr_isNone_iff (s : State) : s.currentSpsr.isNone = true ↔ s.mode = .usr ∨ s.mode = .sys := by
  rw [← Mode.spsrIdx_none, State.currentSpsr]
  cases s.mode.spsrIdx <;> simp

/-- A block transfer with `^` runs in the modes with an SPSR (R215). -/
theorem caret_allowed {s : State} {sf : Bool} (h : sf = true → s.mode ≠ .usr ∧ s.mode ≠ .sys) :
    (sf && s.currentSpsr.isNone) = false := by
  cases sf with
  | false => rfl
  | true => rw [Bool.true_and, ← Bool.not_eq_true, State.currentSpsr_isNone_iff, not_or]; exact h rfl

/-- In the other two modes it does not. -/
theorem caret_stopped {s : State} (h : s.mode = .usr ∨ s.mode = .sys) : (true && s.currentSpsr.isNone) = true :=
  s.currentSpsr_isNone_iff.2 h

/-! LDM, once it runs. -/

/-- The mode whose bank an LDM loads (R213, R215). -/
def State.ldmMode (s : State) (sf : Bool) (list : BitVec 16) : Mode := if sf && !list.getLsbD 15 then .usr else s.mode

section ldm
variable {c : Cond} {p u sf w : Bool} {n : RegNum} {list : BitVec 16} {s : State}

theorem exec_ldm_of_runs (runs : Runs (.ldm c p u sf w n list) s) :
    exec (.ldm c p u sf w n list) s = ldmOp p u sf w n list s ∧ LdmOperands sf w n list :=
  ⟨guarded_of_runs runs _, ldmOperands_of_restrictLdm runs.restriction_none⟩

/-- In a mode without an SPSR an LDM with `^` faults or is refused (R215, U3). -/
theorem ldmOp_stopped (h : s.mode = .usr ∨ s.mode = .sys) : ldmOp p u true w n list s =
    if list.getLsbD 15 then .fault .noSpsr else .refused .userBankUnprivileged :=
  if_pos (caret_stopped h)

/-- An LDM whose words have been read (R213). -/
theorem ldmOp_of_read (allowed : sf = true → s.mode ≠ .usr ∧ s.mode ≠ .sys) {vals : List Word} {t : State}
    (read : readBlock (blockTargets p u w n list s) s = (some vals, t)) : ldmOp p u sf w n list s =
      finishLdm sf n list (s.ldmMode sf list) (blockAddressing p u w n list s) vals t := by
  simp only [ldmOp, caret_allowed allowed, read, Bool.false_eq_true, if_false, State.ldmMode]

/-- An LDM that has met an address that does not exist (R217(e)). -/
theorem ldmOp_of_absent (allowed : sf = true → s.mode ≠ .usr ∧ s.mode ≠ .sys) {t : State}
    (read : readBlock (blockTargets p u w n list s) s = (none, t)) : ldmOp p u sf w n list s =
      abortTransfer n (blockAddressing p u w n list s)
        (scrambleRegs (s.ldmMode sf list) (bank s.mode n) (regList list) t) := by
  simp only [ldmOp, caret_allowed allowed, read, Bool.false_eq_true, if_false, State.ldmMode]

/-- The base written back is not one of the registers loaded (R217). -/
theorem LdmOperands.base_not_listed (ops : LdmOperands sf w n list) (written : w = true) :
    bank s.mode n ∉ listedRegs (s.ldmMode sf list) list := by
  have own : s.ldmMode sf list = s.mode := if_neg fun user => by
    obtain ⟨caret, noPc⟩ := (Bool.and_eq_true ..).to_iff.1 user
    rw [ops.userBank caret written] at noPc
    exact Bool.false_ne_true noPc
  rw [own, mem_listedRegs]
  rintro ⟨i, listed, hi, same⟩
  rw [(bank_inj _ hi ops.base).1 same, mem_regList, ops.unlisted written] at listed
  exact Bool.false_ne_true listed

/-- `t` is `s` after an LDM of the words `vals` into the bank of mode `m`, before it comes to its end: the listed registers, the
base, nothing else (R213). -/
structure BlockLoaded (s t : State) (m : Mode) (n : RegNum) (w : Bool) (list : BitVec 16) (addr : Addressing)
    (vals : List Word) : Prop where
  listed : ListLoaded t m list vals
  base : BaseWritten s t n addr
  frame : OnlyChanges s t (listedRegs m list ++ baseRegs s.mode n w) []
  pc : t.pc = s.pc
  cpsr : t.cpsr = s.cpsr

/-- The words read, then the registers, then the base, which is none of them. -/
theorem blockLoaded {m : Mode} {addr : Addressing} {vals : List Word} (targets : List Word) (base : n ≠ pcNum)
    (written : addr.writeback.isSome = w) (apart : w = true → bank s.mode n ∉ listedRegs m list) :
    BlockLoaded s ((loadRegs m ((regList list).zip vals) (readBlock targets s).2).writeBase n addr) m n w list addr vals := by
  subst written
  have loaded := (readBlock_onlyChanges targets s).trans (loadRegs_onlyChanges m list vals (readBlock targets s).2)
  have wrote := (OnlyChanges.refl (loadRegs m ((regList list).zip vals) (readBlock targets s).2)).writeBase
    (addr := addr) fun _ => base
  have frame := loaded.trans wrote
  rw [loaded.mode] at wrote frame
  obtain ⟨kept, -⟩ := wrote
  obtain ⟨pc, cpsr, -⟩ := loadRegs_onlyRegs m ((regList list).zip vals) (readBlock targets s).2
  obtain ⟨⟨-, pcRead, cpsrRead, -⟩, -⟩ := readBlock_state targets s
  refine ⟨fun k i v hi hv hpc => ?listed, baseWritten_writeBase loaded.mode fun _ => base, frame, ?pc, ?cpsr⟩
  case listed =>
    have member : bank m i ∈ listedRegs m list := mem_listedRegs.2 ⟨i, List.mem_of_getElem? hi, hpc, rfl⟩
    have other : bank m i ∉ baseRegs s.mode n addr.writeback.isSome := fun same => by
      rw [baseRegs, List.mem_ite_nil_right, List.mem_singleton] at same
      obtain ⟨written, same⟩ := same
      exact apart written (same ▸ member)
    rw [kept _ other]
    exact loadRegs_listLoaded m list vals _ k i v hi hv hpc
  case pc => rw [State.writeBase_pc_eq fun _ => base, pc, pcRead]
  case cpsr => rw [State.writeBase_cpsr, cpsr, cpsrRead]

/-- An LDM of addresses that exist comes to its end with the registers and the base loaded (R213 to R215). -/
theorem exec_ldm_loaded (runs : Runs (.ldm c p u sf w n list) s) (allowed : sf = true → s.mode ≠ .usr ∧ s.mode ≠ .sys)
    (present : AllExist s (blockTargets p u w n list s)) :
    ∃ t vals v, BlockRead s (blockTargets p u w n list s) vals t.io ∧ vals.getLast? = some v ∧
      BlockLoaded s t (s.ldmMode sf list) n w list (blockAddressing p u w n list s) vals ∧
      exec (.ldm c p u sf w n list) s =
        if list.getLsbD 15 then (if sf then exceptionReturn v t else .next (t.branchTo (alignWord v)))
        else advance (if sf then t.setHazard true else t) := by
  obtain ⟨meaning, ops⟩ := exec_ldm_of_runs runs
  obtain ⟨vals, read, block⟩ := readBlock_of_allExist present
  have ⟨words, _⟩ := block
  have length : vals.length = (regList list).length := (readBlock_length words).trans (blockTargets_length ..)
  have nonempty : vals ≠ [] := fun none =>
    regList_ne_nil ops.nonempty (List.eq_nil_of_length_eq_zero (by rw [← length, none, List.length_nil]))
  have last : vals.getLastD 0#32 = vals.getLast nonempty := by
    rw [List.getLastD_eq_getLast?, List.getLast?_eq_some_getLast nonempty, Option.getD_some]
  refine ⟨_, vals, vals.getLast nonempty, ?read, List.getLast?_eq_some_getLast nonempty,
    blockLoaded (blockTargets p u w n list s) ops.base (blockAddressing_writeback ..) ops.base_not_listed, ?meaning⟩
  case read =>
    obtain ⟨-, -, -, -, -, -, -, io, -⟩ := loadRegs_onlyRegs (s.ldmMode sf list) ((regList list).zip vals)
      (readBlock (blockTargets p u w n list s) s).2
    rw [State.writeBase_io, io]
    exact block
  case meaning =>
    rw [meaning, ldmOp_of_read allowed read, ← last]
    rfl

end ldm

/-- Settles O37: without `^` the bank is the mode's own, and R15 is the jump that ends the load. -/
theorem loadMultiple : Obligations.LoadMultiple := by
  intro c p u w rn list s runs present follows
  obtain ⟨t, vals, v, read, last, loaded, meaning⟩ := exec_ldm_loaded runs nofun present
  have flags : SameFlags s t := by rw [SameFlags, loaded.cpsr]
  cases pc : list.getLsbD 15 with
  | false =>
    have below : t.pc < 0xFFFFFFFC#32 := by
      rw [pc] at follows
      rw [loaded.pc]
      exact follows.resolve_left Bool.false_ne_true
    rw [pc] at meaning
    exact ⟨_, vals, meaning.trans (advance_eq below), read, loaded.listed, congrArg (· + 4#32) loaded.pc, loaded.base,
      loaded.frame.setPc _, flags⟩
  | true =>
    rw [pc] at meaning
    exact ⟨_, vals, meaning, read, loaded.listed, ⟨⟨v, last, rfl⟩, rfl⟩, loaded.base, loaded.frame.branchTo _, flags⟩

/-- Settles O38: with `^` and no R15 the bank is User's and the base is not written back; without an SPSR neither transfer
begins. -/
theorem loadMultipleUserBank : Obligations.LoadMultipleUserBank := by
  intro c p u w rn list s
  refine ⟨fun runs pc notUsr notSys present below => ?userBank, fun unprivileged =>
    ⟨fun runs pc => ?refused, fun runs pc => ?fault, fun runs => ?stm⟩⟩
  case userBank =>
    obtain ⟨t, vals, v, read, -, loaded, meaning⟩ := exec_ldm_loaded runs (fun _ => ⟨notUsr, notSys⟩) present
    have unwritten : w = false := by
      obtain ⟨-, ops⟩ := exec_ldm_of_runs runs
      rw [← Bool.not_eq_true]
      intro written
      rw [ops.userBank rfl written] at pc
      exact Bool.false_ne_true pc.symm
    have user : s.ldmMode true list = .usr := if_pos (by rw [pc]; rfl)
    have frame := loaded.frame
    rw [unwritten, user, baseRegs, if_neg Bool.false_ne_true, List.append_nil] at frame
    rw [pc] at meaning
    refine ⟨_, vals, meaning.trans (advance_eq (s := t.setHazard true) ?_), read, user ▸ loaded.listed,
      congrArg (· + 4#32) loaded.pc, rfl, frame, ?_⟩
    · exact (congrArg (· < 0xFFFFFFFC#32) loaded.pc).mpr below
    · exact congrArg (field · 28 4) loaded.cpsr
  case refused | fault =>
    obtain ⟨meaning, -⟩ := exec_ldm_of_runs runs
    rw [meaning, ldmOp_stopped unprivileged, pc]
    rfl
  case stm => exact (guarded_of_runs runs _).trans (if_pos (caret_stopped unprivileged))

/-- Settles O39: with `^` and R15 the bank is the mode's own, and the load ends in an exception return. -/
theorem loadMultipleReturns : Obligations.LoadMultipleReturns := by
  intro c p u w rn list s k runs pc saved present
  have allowed : s.mode ≠ .usr ∧ s.mode ≠ .sys := by
    rw [← not_or, ← Mode.spsrIdx_none, saved]
    exact Option.some_ne_none k
  obtain ⟨t, vals, v, read, last, loaded, meaning⟩ := exec_ldm_loaded runs (fun _ => allowed) present
  have own : s.ldmMode true list = s.mode := if_neg (by simp [pc])
  obtain ⟨regs, bytes, spsr, -, world⟩ := loaded.frame
  have restored : t.currentSpsr = some s.spsr[k] := by
    rw [← spsr k List.not_mem_nil]
    exact State.currentSpsr_some (by rw [loaded.frame.mode, saved])
  rw [own] at regs
  rw [pc] at meaning
  constructor
  · exact fun legal => ⟨_, vals, v, meaning.trans (exceptionReturn_legal restored legal), read, own ▸ loaded.listed,
      loaded.base, rfl, last, returnTarget_eq .., rfl, regs, bytes, spsr, world⟩
  · exact fun illegal => meaning.trans (exceptionReturn_illegal restored illegal)

end Sys2Proof.Machine

/-! Block transfers that abort, and STM (R183, R216, R217(e)). -/

namespace Sys2Proof.Machine

/-! The entry of Data Abort after some registers and bytes have changed (R183, R256). -/

/-- An entry from a state whose memory was replaced is one from the state itself, those bytes written. -/
theorem Entered.of_setMem {s t : State} {m : Memory} {e : Exc} {regs : List PReg} {bytes : List Nat}
    (h : Entered (s.setMem m) t e regs []) (changed : SameBytes s (s.setMem m) bytes) : Entered s t e regs bytes := by
  obtain ⟨link, saved, otherSpsr, mode, thumb, irq, fiq, flags, reserved, vector, pipe, regs, kept, world⟩ := h
  exact ⟨link, saved, otherSpsr, mode, thumb, irq, fiq, flags, reserved, vector, pipe, regs,
    fun b outside => (kept b List.not_mem_nil).trans (changed b outside), world⟩

/-- An exception entered after registers and bytes changed is one from the state before, those written. -/
theorem Entered.of_onlyChanges {s u t : State} {e : Exc} {regs : List PReg} {bytes : List Nat} (h : Entered u t e [] [])
    (changed : OnlyChanges s u regs bytes) (pc : u.pc = s.pc) (cpsr : u.cpsr = s.cpsr) : Entered s t e regs bytes := by
  obtain ⟨sameRegs, sameBytes, rest⟩ := changed
  exact (h.of_sameRegs (s := s.setMem u.mem) ⟨sameRegs, fun _ _ => rfl, rest⟩ pc cpsr).of_setMem sameBytes

/-- An entry's frame may list more registers than change. -/
theorem Entered.mono {s t : State} {e : Exc} {regs regs' : List PReg} {bytes : List Nat} (h : Entered s t e regs bytes)
    (sub : regs ⊆ regs') : Entered s t e regs' bytes := by
  obtain ⟨link, saved, otherSpsr, mode, thumb, irq, fiq, flags, reserved, vector, pipe, kept, rest⟩ := h
  exact ⟨link, saved, otherSpsr, mode, thumb, irq, fiq, flags, reserved, vector, pipe,
    fun q outside => kept q (outside ∘ (List.cons_subset_cons _ sub ·)), rest⟩

/-- A block transfer that aborts after some registers and bytes have changed: the base as ABORT_BASE says, then Data Abort
(R183, R217(e)). -/
theorem abortTransfer_entered {s u : State} {n : RegNum} {addr : Addressing} {regs : List PReg} {bytes : List Nat}
    (changed : OnlyChanges s u regs bytes) (pc : u.pc = s.pc) (cpsr : u.cpsr = s.cpsr) (base : n ≠ pcNum) :
    ∃ t, abortTransfer n addr u = .next t ∧
      Entered s t .dataAbort
        (regs ++ if s.platform.abortBaseUpdated then baseRegs s.mode n addr.writeback.isSome else []) bytes ∧
      t.mem = u.mem ∧
      (bank s.mode n ≠ bank .abt 14#4 → t.preg (bank s.mode n) =
        if s.platform.abortBaseUpdated then addr.writeback.getD (u.preg (bank s.mode n)) else u.preg (bank s.mode n)) := by
  have ⟨_, _, _, _, _, platform⟩ := changed
  refine ⟨_, rfl, ?_⟩
  rw [platform]
  cases s.platform.abortBaseUpdated with
  | false =>
    simp only [Bool.false_eq_true, if_false, List.append_nil]
    refine ⟨(entered_takeException u .dataAbort).of_onlyChanges changed pc cpsr, State.takeException_mem .., fun unlinked => ?_⟩
    rw [State.takeException_preg]
    exact if_neg unlinked.symm
  | true =>
    simp only [if_true]
    have wrote := changed.trans ((OnlyChanges.refl u).writeBase (addr := addr) fun _ => base)
    rw [changed.mode, List.append_nil] at wrote
    refine ⟨(entered_takeException _ .dataAbort).of_onlyChanges wrote ((State.writeBase_pc_eq fun _ => base).trans pc)
      ((State.writeBase_cpsr ..).trans cpsr), (State.takeException_mem ..).trans (State.writeBase_mem ..), fun unlinked => ?_⟩
    rw [State.takeException_preg]
    refine (if_neg unlinked.symm).trans ?_
    cases written : addr.writeback with
    | none => rw [State.writeBase, written]; rfl
    | some v => exact baseWritten_writeBase changed.mode (fun _ => base) v written

/-- Before Data Abort the read leaves the state alone, the scramble every register not listed, and the base. -/
theorem exec_ldm_absent {c : Cond} {p u sf w : Bool} {n : RegNum} {list : BitVec 16} {s : State}
    (runs : Runs (.ldm c p u sf w n list) s) (allowed : sf = true → s.mode ≠ .usr ∧ s.mode ≠ .sys)
    (absent : ¬ AllExist s (blockTargets p u w n list s)) :
    ∃ r, exec (.ldm c p u sf w n list) s = abortTransfer n (blockAddressing p u w n list s) r ∧
      OnlyChanges s r (listedRegs (s.ldmMode sf list) list) [] ∧ r.pc = s.pc ∧ r.cpsr = s.cpsr ∧
      r.preg (bank s.mode n) = s.preg (bank s.mode n) := by
  obtain ⟨meaning, -⟩ := exec_ldm_of_runs runs
  obtain ⟨read, -⟩ := readBlock_state (blockTargets p u w n list s) s
  have base := read.preg (bank s.mode n)
  obtain ⟨-, pcRead, cpsrRead, -⟩ := read
  obtain ⟨pc, cpsr, -⟩ := scrambleRegs_onlyRegs (s.ldmMode sf list) (bank s.mode n) (regList list)
    (readBlock (blockTargets p u w n list s) s).2
  exact ⟨_, meaning.trans (ldmOp_of_absent allowed (readBlock_of_absent absent)),
    (readBlock_onlyChanges ..).trans (scrambleRegs_onlyChanges ..), pc.trans pcRead, cpsr.trans cpsrRead,
    (scrambleRegs_preg _ _ _ _ _ (.inl rfl)).trans base⟩

/-- Settles O40: Data Abort is entered with the listed registers open, and the base as it was or written back. -/
theorem loadMultipleAborts : Obligations.LoadMultipleAborts := by
  intro c p u sf w rn list s runs allowed absent
  obtain ⟨-, ops⟩ := exec_ldm_of_runs runs
  obtain ⟨r, abort, changed, pc, cpsr, base⟩ := exec_ldm_absent runs allowed absent
  obtain ⟨t, next, entered, -, based⟩ :=
    abortTransfer_entered (addr := blockAddressing p u w rn list s) changed pc cpsr ops.base
  rw [base] at based
  rw [blockAddressing_writeback] at entered
  refine ⟨t, abort.trans next, entered.mono (List.append_subset.2 ⟨List.subset_append_left .., ?_⟩), based⟩
  split
  · exact List.subset_append_right ..
  · exact List.nil_subset _

/-! STM, once it runs. -/

/-- The value STM stores from a register, with and without `^` (R215(c), R216, log 32). -/
theorem State.blockValue_eq (s : State) (sf : Bool) (i : RegNum) :
    (if sf then s.storedUserReg i else s.storedReg i) = s.blockValue sf i := by
  cases sf with
  | false => exact s.storedReg_eq i
  | true => by_cases hi : i = pcNum <;> simp [State.storedUserReg, State.userReg, State.blockValue, hi]

section stm
variable (p u sf w : Bool) (n : RegNum) (list : BitVec 16) (s : State)

/-- Each address takes one word. -/
theorem storedWords_map_fst : (storedWords p u sf w n list s).map Prod.fst = blockTargets p u w n list s :=
  List.map_fst_zip (by rw [blockTargets_length, List.length_map])

/-- The addresses of the words an STM stores share no byte. -/
theorem storedWords_apart : ((storedWords p u sf w n list s).map Prod.fst).Pairwise WordsApart := by
  rw [storedWords_map_fst]; exact blockTargets_apart ..

/-- The state after the words of an STM are written, up to the first address that does not exist. -/
def State.blockWritten : State := (writeBlock (storedWords p u sf w n list s) s).2

theorem State.blockWritten_pc : (s.blockWritten p u sf w n list).pc = s.pc := by
  obtain ⟨⟨-, pc, -⟩, -⟩ := writeBlock_state (storedWords p u sf w n list s) s
  exact pc

theorem State.blockWritten_cpsr : (s.blockWritten p u sf w n list).cpsr = s.cpsr := by
  obtain ⟨⟨-, -, cpsr, -⟩, -⟩ := writeBlock_state (storedWords p u sf w n list s) s
  exact cpsr

theorem State.blockWritten_onlyChanges :
    OnlyChanges s (s.blockWritten p u sf w n list) [] (blockBytes (blockTargets p u w n list s)) := by
  rw [← storedWords_map_fst p u sf w n list s]; exact writeBlock_onlyChanges ..

variable {p u sf w n list s}

theorem State.blockWritten_io (memory : ∀ a ∈ blockTargets p u w n list s, s.accessDevice a .word = false) :
    (s.blockWritten p u sf w n list).io = s.io :=
  writeBlock_io _ s fun c hc => memory c.1 (storedWords_map_fst p u sf w n list s ▸ List.mem_map_of_mem hc)

section word
variable {k : Nat} {i : RegNum} {a : Word} (hi : (regList list)[k]? = some i)
  (ha : (blockTargets p u w n list s)[k]? = some a)
include hi ha

/-- The word of the `k`-th address is that of the `k`-th register (R211). -/
theorem storedWords_getElem? : (storedWords p u sf w n list s)[k]? = some (a, s.blockValue sf i) :=
  List.getElem?_zip_eq_some.2 ⟨ha, by rw [List.getElem?_map, hi, Option.map_some, State.blockValue_eq]⟩

/-- Up to the first address that does not exist the words are stored (R217(e)). -/
theorem State.blockWritten_stored (present : AllExist s ((blockTargets p u w n list s).take (k + 1))) :
    WordStored s (s.blockWritten p u sf w n list) a (s.blockValue sf i) := by
  rw [← storedWords_map_fst p u sf w n list s] at present
  exact writeBlock_stored (storedWords_apart ..) (storedWords_getElem? hi ha) present

/-- From there on they are not. -/
theorem State.blockWritten_unreached (absent : ¬ AllExist s ((blockTargets p u w n list s).take (k + 1))) {j : Nat}
    (hj : j < 4) : (s.blockWritten p u sf w n list).mem.read (byteAddr a j) = s.mem.read (byteAddr a j) := by
  rw [← storedWords_map_fst p u sf w n list s] at absent
  exact writeBlock_unreached (storedWords_apart ..) (storedWords_getElem? hi ha) absent hj

end word

/-- An STM of addresses that exist (R216). -/
theorem stmOp_of_allExist (allowed : sf = true → s.mode ≠ .usr ∧ s.mode ≠ .sys)
    (present : AllExist s (blockTargets p u w n list s)) : stmOp p u sf w n list s =
      advance ((s.blockWritten p u sf w n list).writeBase n (blockAddressing p u w n list s)) := by
  rw [← storedWords_map_fst p u sf w n list s, ← writeBlock_fst_iff] at present
  have wrote : writeBlock (storedWords p u sf w n list s) s = (true, s.blockWritten p u sf w n list) := Prod.ext present rfl
  simp only [stmOp, caret_allowed allowed, wrote, Bool.false_eq_true, if_false]

/-- An STM that has met an address that does not exist (R217(e)). -/
theorem stmOp_of_absent (allowed : sf = true → s.mode ≠ .usr ∧ s.mode ≠ .sys)
    (absent : ¬ AllExist s (blockTargets p u w n list s)) : stmOp p u sf w n list s =
      abortTransfer n (blockAddressing p u w n list s) (s.blockWritten p u sf w n list) := by
  rw [← storedWords_map_fst p u sf w n list s, ← writeBlock_fst_iff, Bool.not_eq_true] at absent
  have wrote : writeBlock (storedWords p u sf w n list s) s = (false, s.blockWritten p u sf w n list) := Prod.ext absent rfl
  simp only [stmOp, caret_allowed allowed, wrote, Bool.false_eq_true, if_false]

theorem exec_stm_of_runs {c : Cond} (runs : Runs (.stm c p u sf w n list) s) :
    exec (.stm c p u sf w n list) s = stmOp p u sf w n list s ∧ n ≠ pcNum :=
  ⟨guarded_of_runs runs _, base_ne_pc_of_restrictStm runs.restriction_none⟩

end stm

/-- `WordStored` speaks of memory alone. -/
theorem WordStored.congr {s t u : State} {a v : Word} (h : WordStored s u a v) (mem : t.mem = u.mem) : WordStored s t a v := by
  rw [WordStored, mem]; exact h

/-- Settles O41: all words are written, then the base. -/
theorem storeMultiple : Obligations.StoreMultiple := by
  intro c p u sf w rn list s runs allowed present below
  obtain ⟨meaning, base⟩ := exec_stm_of_runs runs
  rw [stmOp_of_allExist allowed present] at meaning
  have written := s.blockWritten_onlyChanges p u sf w rn list
  have frame := written.writeBase (addr := blockAddressing p u w rn list s) fun _ => base
  rw [blockAddressing_writeback] at frame
  have pc : ((s.blockWritten p u sf w rn list).writeBase rn (blockAddressing p u w rn list s)).pc = s.pc :=
    (State.writeBase_pc_eq fun _ => base).trans (State.blockWritten_pc ..)
  refine ⟨_, meaning.trans (advance_eq (by rwa [pc])), congrArg (· + 4#32) pc, fun k i a hi ha => ?stored,
    baseWritten_writeBase written.mode fun _ => base, frame.setPc _, ?flags,
    fun memory => (State.writeBase_io ..).trans (State.blockWritten_io memory)⟩
  case stored =>
    have reached := State.blockWritten_stored (sf := sf) hi ha fun b hb => present b (List.mem_of_mem_take hb)
    exact reached.congr (State.writeBase_mem ..)
  case flags => exact congrArg (field · 28 4) ((State.writeBase_cpsr ..).trans (State.blockWritten_cpsr ..))

/-- Settles O42: the words before the first absent address are written, then Data Abort is entered. -/
theorem storeMultipleAborts : Obligations.StoreMultipleAborts := by
  intro c p u sf w rn list s runs allowed absent
  obtain ⟨meaning, base⟩ := exec_stm_of_runs runs
  rw [stmOp_of_absent allowed absent] at meaning
  obtain ⟨t, next, entered, mem, based⟩ := abortTransfer_entered (addr := blockAddressing p u w rn list s)
    (s.blockWritten_onlyChanges p u sf w rn list) (s.blockWritten_pc ..) (s.blockWritten_cpsr ..) base
  rw [List.nil_append, blockAddressing_writeback] at entered
  refine ⟨t, meaning.trans next, entered, fun updated unlinked v written => ?base, fun k i a hi ha => ?word⟩
  case base => rw [based unlinked, if_pos updated, written, Option.getD_some]
  case word =>
    split
    next reached => exact (State.blockWritten_stored hi ha reached).congr mem
    next unreached =>
      rw [mem]
      exact fun j hj => State.blockWritten_unreached hi ha unreached hj

end Sys2Proof.Machine

/-! Status registers (R221 to R226): what MRS reads, which bits MSR writes, and where the two stop. -/

namespace Sys2Proof.Machine

/-! MRS (R221). -/

/-- An MRS that runs does not name R15. -/
theorem exec_mrs_of_runs {c : Cond} {spsr : Bool} {rd : RegNum} {s : State} (runs : Runs (.mrs c spsr rd) s) :
    exec (.mrs c spsr rd) s = mrsOp spsr rd s ∧ rd ≠ pcNum := by
  refine ⟨guarded_of_runs runs _, ?_⟩
  have unrestricted : firstBroken [(.statusPc, rd == pcNum)] = none := runs.restriction_none
  rw [firstBroken_cons_none] at unrestricted
  exact beq_eq_false_iff_ne.1 unrestricted.1

/-- The register named is read, its bits 27:8 from a free value (R35, log 13). -/
theorem mrsOp_reads {spsr : Bool} {d : RegNum} {s : State} {w : Word}
    (named : (spsr = false ∧ w = s.cpsr) ∨ (spsr = true ∧ s.currentSpsr = some w)) :
    mrsOp spsr d s = finishReg d (psrRead w (Config.freeWord s.draws)) (s.draw 1) := by
  obtain ⟨rfl, rfl⟩ | ⟨rfl, saved⟩ := named
  · rfl
  · simp only [mrsOp, if_true, saved]

theorem mrsOp_noSpsr {d : RegNum} {s : State} (unsaved : s.mode.spsrIdx = none) : mrsOp true d s = .fault .noSpsr := by
  simp only [mrsOp, if_true, State.currentSpsr_none unsaved]

/-- A field outside bits 27:8 is read as it stands (R35). -/
theorem field_psrRead (w free : Word) {lo len : Nat} (inWord : lo + len ≤ 32) (named : lo + len ≤ 8 ∨ 28 ≤ lo) :
    field (psrRead w free) lo len = field w lo len :=
  field_ext fun i above below => by
    rw [bitAt_psrRead _ _ i (by omega), bitAt_psrNamed i (by omega), if_pos (decide_eq_true (by omega))]

/-- The count of free values is the model's own record, which no frame lists. -/
theorem OnlyChanges.draw {s u : State} {regs : List PReg} {bytes : List Nat} (h : OnlyChanges s u regs bytes) (n : Nat) :
    OnlyChanges s (u.draw n) regs bytes := h

/-- Settles O29: one read, then a register written as by any other instruction; R224 is the mode without an SPSR. -/
theorem readStatusRegister : Obligations.ReadStatusRegister := by
  intro c spsr rd s runs
  obtain ⟨meaning, destination⟩ := exec_mrs_of_runs runs
  rw [meaning]
  refine ⟨fun w named below => ?read, fun saved mode => ?noSpsr⟩
  case read =>
    have result : ((s.draw 1).setPReg (bank s.mode rd) (psrRead w (Config.freeWord s.draws))).preg (bank s.mode rd) =
        psrRead w (Config.freeWord s.draws) := (State.setPReg_preg ..).trans (if_pos rfl)
    refine ⟨_, (mrsOp_reads named).trans (finishReg_register destination below), ?control, ?flags, rfl, rfl,
      (((OnlyChanges.refl s).draw 1).setPReg _ _).setPc _, rfl⟩
    case control => exact (congrArg (field · 0 8) result).trans (field_psrRead w _ (by decide) (by decide))
    case flags => exact (congrArg (field · 28 4) result).trans (field_psrRead w _ (by decide) (by decide))
  case noSpsr =>
    subst saved
    exact mrsOp_noSpsr ((Mode.spsrIdx_none _).2 mode)

/-! The rows of MSR and the bits they write (R222, R223). -/

/-- Both rows of MSR have one rule, on the operand of each. -/
theorem exec_msrRow_of_runs {c : Cond} {spsr : Bool} {mask : BitVec 4} {v : Word} {s : State} {i : Instr}
    (row : MsrRow c spsr mask v s i) (runs : Runs i s) : exec i s = msrOp spsr mask v s := by
  obtain ⟨rm, rfl, rfl⟩ | ⟨rot, imm8, rfl, rfl⟩ := row <;> exact guarded_of_runs runs _

/-- A bit after a write of the named bytes (R35, R222). -/
theorem bitAt_psrWrite_byteMask (w v : Word) (mask : BitVec 4) {b : Nat} (hb : b < 32) :
    bitAt (psrWrite w v (psrByteMask mask)) b =
      if mask.getLsbD (b / 8) ∧ (b < 8 ∨ 28 ≤ b) then bitAt v b else bitAt w b := by
  rw [bitAt_psrWrite _ _ _ _ hb, bitAt_psrByteMask _ _ hb, bitAt_psrNamed b hb]
  simp only [Bool.and_eq_true, decide_eq_true_eq]

/-- The control byte holds M (R30, R222). -/
theorem field_psrByteMask (mask : BitVec 4) :
    field (psrByteMask mask) 0 5 = if mask.getLsbD 0 then 0b11111#5 else 0#5 := by
  revert mask; decide

theorem State.privileged_iff (s : State) : s.privileged = true ↔ s.mode ≠ .usr := bne_iff_ne

section cpsr
variable {mask : BitVec 4} {v : Word} {s : State}

theorem msrMask_privileged (privileged : s.mode ≠ .usr) : msrMask mask s = psrByteMask mask :=
  if_pos (s.privileged_iff.2 privileged)

theorem msrMask_user (user : s.mode = .usr) : msrMask mask s = psrByteMask mask &&& 0xFF000000#32 :=
  if_neg fun privileged => s.privileged_iff.1 privileged user

/-- The mask of User mode names no bit of M (R223). -/
theorem field_msrMask_user (user : s.mode = .usr) : field (msrMask mask s) 0 5 = 0#5 := by
  rw [msrMask_user user]
  clear user
  revert mask
  decide

/-- The CPSR that MSR writes (R222). -/
def State.msrWritten (s : State) (mask : BitVec 4) (v : Word) : Word := psrWrite s.cpsr v (msrMask mask s)

/-- In a privileged mode all named bytes are written (R222). -/
theorem bitAt_msrWritten_privileged (privileged : s.mode ≠ .usr) {b : Nat} (hb : b < 32) :
    bitAt (s.msrWritten mask v) b =
      if mask.getLsbD (b / 8) ∧ (b < 8 ∨ 28 ≤ b) then bitAt v b else bitAt s.cpsr b := by
  rw [State.msrWritten, msrMask_privileged privileged, bitAt_psrWrite_byteMask _ _ _ hb]

/-- In User mode only bits 31:28 are written (R223). -/
theorem bitAt_msrWritten_user (user : s.mode = .usr) {b : Nat} (hb : b < 32) :
    bitAt (s.msrWritten mask v) b = if mask.getLsbD 3 ∧ 28 ≤ b then bitAt v b else bitAt s.cpsr b := by
  have flagsByte : bitAt (psrByteMask mask &&& 0xFF000000#32) b = (mask.getLsbD (b / 8) && decide (24 ≤ b)) := by
    have high : bitAt 0xFF000000#32 b = decide (24 ≤ b) := by interval_cases b <;> decide
    rw [← bitAt_psrByteMask mask b hb, ← high]
    exact BitVec.getLsbD_and
  rw [State.msrWritten, msrMask_user user, bitAt_psrWrite _ _ _ _ hb, flagsByte, bitAt_psrNamed b hb]
  have flagsOnly : ((mask.getLsbD (b / 8) && decide (24 ≤ b)) && decide (b < 8 ∨ 28 ≤ b)) = true ↔
      mask.getLsbD 3 = true ∧ 28 ≤ b := by
    simp only [Bool.and_eq_true, decide_eq_true_eq]
    constructor
    · rintro ⟨⟨named, upper⟩, top⟩
      have byte : b / 8 = 3 := by omega
      exact ⟨byte ▸ named, by omega⟩
    · rintro ⟨named, top⟩
      have byte : b / 8 = 3 := by omega
      exact ⟨⟨byte ▸ named, by omega⟩, .inr top⟩
  simp only [flagsOnly]

/-- User mode cannot write I, F, T, M (R223). -/
theorem control_msrWritten_user (user : s.mode = .usr) : field (s.msrWritten mask v) 0 28 = field s.cpsr 0 28 :=
  field_ext fun b _ below => by
    rw [bitAt_msrWritten_user user (by omega), if_neg (by omega)]

theorem flags_msrWritten_user (user : s.mode = .usr) :
    field (s.msrWritten mask v) 28 4 = if mask.getLsbD 3 then field v 28 4 else field s.cpsr 28 4 := by
  split <;> refine field_ext fun b above below => ?_ <;> rw [bitAt_msrWritten_user user (by omega)]
  next named => exact if_pos ⟨named, above⟩
  next unnamed => exact if_neg fun ⟨named, _⟩ => unnamed named

/-- T and M are written with the control byte. -/
theorem psrT_msrWritten (privileged : s.mode ≠ .usr) (named : mask.getLsbD 0 = true) :
    psrT (s.msrWritten mask v) = bitAt v 5 :=
  (bitAt_msrWritten_privileged privileged (by decide)).trans (if_pos ⟨named, by decide⟩)

theorem psrM_msrWritten (privileged : s.mode ≠ .usr) (named : mask.getLsbD 0 = true) :
    psrM (s.msrWritten mask v) = field v 0 5 :=
  field_ext fun b _ below => by
    have byte : b / 8 = 0 := by omega
    rw [bitAt_msrWritten_privileged privileged (by omega), byte, if_pos ⟨named, by omega⟩]

/-- Without it T is kept. -/
theorem psrT_msrWritten_unnamed (privileged : s.mode ≠ .usr) (unnamed : mask.getLsbD 0 = false) :
    psrT (s.msrWritten mask v) = psrT s.cpsr :=
  (bitAt_msrWritten_privileged privileged (by decide)).trans
    (if_neg fun ⟨named, _⟩ => Bool.false_ne_true (unnamed.symm.trans named))

/-! MSR to CPSR (R222, R223, R225, R226). -/

/-- A write that keeps T, and gives M a legal value if it names M, completes. -/
theorem msrCpsr_completes (sameT : psrT (s.msrWritten mask v) = psrT s.cpsr)
    (legal : field (msrMask mask s) 0 5 = 0#5 ∨ legalMode (psrM (s.msrWritten mask v)) = true)
    (below : s.pc < 0xFFFFFFFC#32) :
    msrCpsr mask v s = .next ((s.setCpsr (s.msrWritten mask v)).setPc (s.pc + 4#32)) := by
  have checked : ¬ (field (msrMask mask s) 0 5 ≠ 0#5 ∧ legalMode (psrM (s.msrWritten mask v)) = false) := by
    rintro ⟨named, illegal⟩
    exact legal.elim named (by simp [illegal])
  exact (if_neg (not_not.2 sameT)).trans ((if_neg checked).trans (advance_eq (s := s.setCpsr _) below))

/-- A change of T comes first (R225). -/
theorem msrCpsr_thumbBit (changed : psrT (s.msrWritten mask v) ≠ psrT s.cpsr) : msrCpsr mask v s = .fault .psrThumbBit :=
  if_pos changed

/-- An illegal mode second (R226). -/
theorem msrCpsr_illegalMode (sameT : psrT (s.msrWritten mask v) = psrT s.cpsr) (named : field (msrMask mask s) 0 5 ≠ 0#5)
    (illegal : legalMode (psrM (s.msrWritten mask v)) = false) : msrCpsr mask v s = .fault .illegalMode :=
  (if_neg (not_not.2 sameT)).trans (if_pos ⟨named, illegal⟩)

end cpsr

/-- Settles O30: with the control byte T and M are checked and pass, without it they are kept. -/
theorem writeCpsrPrivileged : Obligations.WriteCpsrPrivileged := by
  intro c mask v s i row runs privileged allowed below
  have next : msrCpsr mask v s = .next ((s.setCpsr (s.msrWritten mask v)).setPc (s.pc + 4#32)) := by
    cases named : mask.getLsbD 0 with
    | true =>
      obtain ⟨sameT, legal⟩ := allowed named
      exact msrCpsr_completes ((psrT_msrWritten privileged named).trans sameT.symm)
        (.inr (by rwa [psrM_msrWritten privileged named])) below
    | false =>
      exact msrCpsr_completes (psrT_msrWritten_unnamed privileged named)
        (.inl (by rw [msrMask_privileged privileged, field_psrByteMask, named]; rfl)) below
  exact ⟨_, (exec_msrRow_of_runs row runs).trans next, fun b hb => bitAt_msrWritten_privileged privileged hb, rfl,
    fun _ _ => rfl, fun _ _ => rfl, fun _ _ => rfl, ⟨rfl, rfl⟩, rfl⟩

/-- Settles O31: the mask of User mode names no control bit, so both checks pass. -/
theorem writeCpsrUser : Obligations.WriteCpsrUser := by
  intro c mask v s i row runs user below
  have control : field (s.msrWritten mask v) 0 28 = field s.cpsr 0 28 := control_msrWritten_user user
  have next := msrCpsr_completes (psrT_of_control control) (.inl (field_msrMask_user user)) below
  exact ⟨_, (exec_msrRow_of_runs row runs).trans next, flags_msrWritten_user user, rfl,
    ⟨fun _ _ => rfl, fun _ _ => rfl, fun _ _ => rfl, control, rfl, rfl⟩, rfl⟩

/-- Settles O33: the control byte is written whole, so T and M would take the operand's bits. -/
theorem writeCpsrFaults : Obligations.WriteCpsrFaults := by
  intro c mask v s i row runs privileged named
  have meaning : exec i s = msrCpsr mask v s := exec_msrRow_of_runs row runs
  have writtenT : psrT (s.msrWritten mask v) = bitAt v 5 := psrT_msrWritten privileged named
  rw [meaning]
  refine ⟨fun changed => ?thumbBit, fun sameT illegal => ?illegalMode⟩
  case thumbBit => exact msrCpsr_thumbBit (by rw [writtenT]; exact changed.symm)
  case illegalMode =>
    refine msrCpsr_illegalMode (writtenT.trans sameT.symm) ?_ (by rwa [psrM_msrWritten privileged named])
    rw [msrMask_privileged privileged, field_psrByteMask, if_pos named]
    decide

/-! MSR to SPSR (R222, R224). -/

/-- The mode's SPSR takes the named bytes, whatever value M gets. -/
theorem msrSpsr_completes {mask : BitVec 4} {v : Word} {s : State} {k : SpsrIdx} (saved : s.mode.spsrIdx = some k)
    (below : s.pc < 0xFFFFFFFC#32) :
    msrSpsr mask v s = .next ((s.setSpsr k (psrWrite s.spsr[k] v (psrByteMask mask))).setPc (s.pc + 4#32)) := by
  simp only [msrSpsr, saved]
  exact advance_eq (s := s.setSpsr _ _) below

theorem msrSpsr_noSpsr {mask : BitVec 4} {v : Word} {s : State} (unsaved : s.mode.spsrIdx = none) :
    msrSpsr mask v s = .fault .noSpsr := by
  simp only [msrSpsr, unsaved]

/-- Settles O32: one SPSR is written under the byte mask; R224 is the mode without an SPSR. -/
theorem writeSpsr : Obligations.WriteSpsr := by
  intro c mask v s i row runs
  have meaning : exec i s = msrSpsr mask v s := exec_msrRow_of_runs row runs
  rw [meaning]
  refine ⟨fun k saved below => ?write, fun mode => msrSpsr_noSpsr ((Mode.spsrIdx_none _).2 mode)⟩
  case write =>
    refine ⟨_, msrSpsr_completes saved below, fun b hb => ?bits, fun j other => ?others, rfl, rfl, fun _ _ => rfl,
      fun _ _ => rfl, ⟨rfl, rfl⟩, rfl⟩
    case bits =>
      rw [State.setPc_spsr, State.setSpsr_spsr, State.setSpsr_getElem, if_pos rfl, bitAt_psrWrite_byteMask _ _ _ hb]
    case others =>
      rw [State.setPc_spsr, State.setSpsr_spsr, State.setSpsr_getElem, if_neg fun same => other (by simp [same])]

end Sys2Proof.Machine

/-! The instructions that trap (R105, R232, R233): each enters one exception and does nothing else. -/

namespace Sys2Proof.Machine

/-- An instruction whose effect is a trap enters that exception, and drives no device. -/
theorem exec_trapped {i : Instr} {s : State} {e : Exc} (meaning : exec i s = .next (s.takeException e)) :
    ∃ t, exec i s = .next t ∧ Entered s t e [] [] ∧ t.io = s.io :=
  ⟨_, meaning, entered_takeException s e, State.takeException_io ..⟩

/-- Settles O35: behind the condition, the six rows have one effect, and no field takes part in it. -/
theorem undefinedInstructions : Obligations.UndefinedInstructions := by
  intro s i runs row
  have meaning : exec i s = .next (s.takeException .undefined) := by
    obtain ⟨c, hi, lo, rfl⟩ | ⟨c, p, u, n, w, rn, crd, cp, off8, rfl⟩ | ⟨c, p, u, n, w, rn, crd, cp, off8, rfl⟩ |
      ⟨c, op1, crn, crd, cp, op2, crm, rfl⟩ | ⟨c, op1, crn, rd, cp, op2, crm, rfl⟩ |
      ⟨c, op1, crn, rd, cp, op2, crm, rfl⟩ := row <;> exact guarded_of_runs runs _
  exact exec_trapped meaning

end Sys2Proof.Machine

/-! Taking an exception and returning from it (R251, R252, R256 to R258, R275, R276). -/

namespace Sys2Proof.Machine

/-- Settles O43: the three tables of the model, row by row. -/
theorem exceptionTable : Obligations.ExceptionTable := by
  unfold Obligations.ExceptionTable
  decide

/-- Settles O44: the entry is one operation for the seven exceptions, and `Entered` says what it writes. -/
theorem takingAnException : Obligations.TakingAnException :=
  fun s e _ => entered_takeException s e

/-- Settles O34: the number is no part of the effect, which is the trap (R99). -/
theorem softwareInterrupt : Obligations.SoftwareInterrupt :=
  fun _ _ _ runs => exec_trapped (guarded_of_runs runs _)

/-! Where an instruction may stand (R28, R65). -/

/-- PC is even in THUMB state and a multiple of four in ARM state. -/
def AlignedFor (thumb : Bool) (v : Word) : Prop := if thumb then bitAt v 0 = false else field v 0 2 = 0#2

theorem bitAt_zero_iff (w : Word) : bitAt w 0 = false ↔ w.toNat % 2 = 0 := by
  rw [bitAt, BitVec.getLsbD, Nat.testBit_zero, decide_eq_false_iff_not, Nat.mod_two_not_eq_one]

/-- The next instruction of the state is aligned as this one is. -/
theorem AlignedFor.next {thumb : Bool} {v : Word} (h : AlignedFor thumb v) :
    AlignedFor thumb (v + if thumb then 2#32 else 4#32) := by
  cases thumb with
  | false => exact lowBits_add h (by decide)
  | true =>
    have even : v.toNat % 2 = 0 := (bitAt_zero_iff v).1 h
    refine (bitAt_zero_iff _).2 ?_
    rw [if_pos rfl, BitVec.toNat_add]
    simp only [BitVec.reduceToNat]
    omega

/-- A mask keeps a word whose bits are clear wherever the mask's are. -/
theorem and_eq_self_of_clear {v mask : Word} (h : ∀ i, i < 32 → bitAt mask i = false → bitAt v i = false) :
    v &&& mask = v := by
  apply BitVec.eq_of_getLsbD_eq
  intro i hi
  rw [BitVec.getLsbD_and]
  cases hm : mask.getLsbD i with
  | true => rw [Bool.and_true]
  | false => rw [Bool.and_false]; exact (h i hi hm).symm

/-- The bits an exception return ignores are clear in such an address (R148). -/
theorem AlignedFor.returnTarget {thumb : Bool} {v : Word} (h : AlignedFor thumb v) :
    v &&& (if thumb then 0xFFFFFFFE#32 else 0xFFFFFFFC#32) = v := by
  cases thumb with
  | false =>
    have ignored : ∀ i, i < 32 → bitAt 0xFFFFFFFC#32 i = false → i < 2 := by decide
    refine and_eq_self_of_clear fun i hi masked => ?_
    have low : field v 0 2 = 0#2 := h
    have bit := congrArg (·.getLsbD i) low
    simpa only [getLsbD_field, ignored i hi masked, decide_true, Bool.true_and, Nat.zero_add, BitVec.getLsbD_zero] using bit
  | true =>
    have ignored : ∀ i, i < 32 → bitAt 0xFFFFFFFE#32 i = false → i = 0 := by decide
    refine and_eq_self_of_clear fun i hi masked => ?_
    rw [ignored i hi masked]
    exact h

/-! The return instructions (R275, R276). -/

/-- Every mode that an exception enters has an SPSR (R36). -/
theorem Exc.mode_spsrIdx (e : Exc) : ∃ k, e.mode.spsrIdx = some k := by
  cases e <;> exact ⟨_, rfl⟩

/-- In the handler R14 is the link value of the entry (R256). -/
theorem takeException_link (s : State) (e : Exc) :
    (s.takeException e).reg 14#4 = s.pc + e.linkOffset s.thumb := by
  rw [State.reg_of_ne _ (by decide), State.takeException_mode, State.takeException_preg, if_pos rfl]

section resume
variable {s : State} {e : Exc}

/-- `t` is at `v`, in the state from which `e` was entered but for R14 and the SPSR of the exception's mode. -/
def Resumed (s t : State) (e : Exc) (v : Word) : Prop :=
  t.pc = v ∧ t.cpsr = s.cpsr ∧ SameRegs s t [bank e.mode 14#4] ∧ SameBytes s t [] ∧ SameSpsr s t (spsrsOf e.mode) ∧
    SameWorld s t

/-- A data-processing instruction with S and R15, run right after the entry, resumes at its result (R275). -/
theorem dataRow_resumes {op : DataOpcode} {c : Cond} {rn : RegNum} {o : Operand2} {v : Word}
    (runs : Runs (op.row c true rn pcNum o) (s.takeException e)) (value : (s.takeException e).dataResult op rn o = v)
    (aligned : AlignedFor s.thumb v) (legal : legalMode (psrM s.cpsr) = true) :
    ∃ t, exec (op.row c true rn pcNum o) (s.takeException e) = .next t ∧ Resumed s t e v := by
  obtain ⟨-, saved, otherSpsr, -, -, -, -, -, -, -, -, regs, bytes, inputs, platform⟩ := entered_takeException s e
  obtain ⟨k, hk⟩ := e.mode_spsrIdx
  have saved := saved k hk
  obtain ⟨returns, -⟩ := dataInstructionReturns op c rn o _ runs
  obtain ⟨t, next, cpsr, pc, -, regs', bytes', spsr', ⟨inputs', platform'⟩, -⟩ :=
    returns k (by rw [State.takeException_mode, hk]) (by rw [saved]; exact legal)
  rw [saved] at cpsr pc
  rw [value] at pc
  exact ⟨t, next, pc.trans aligned.returnTarget, cpsr, fun p hp => (regs' p List.not_mem_nil).trans (regs p hp),
    fun a ha => (bytes' a ha).trans (bytes a ha), fun j hj => (spsr' j List.not_mem_nil).trans (otherSpsr j hj),
    inputs'.trans inputs, platform'.trans platform⟩

/-- `MOVS PC,R14` resumes behind the instruction that trapped. -/
theorem movs_resumes (link : e.linkOffset s.thumb = if s.thumb then 2#32 else 4#32) (aligned : AlignedFor s.thumb s.pc)
    (legal : legalMode (psrM s.cpsr) = true) :
    ∃ t, exec (.movShImm .al true pcNum 0#5 .lsl 14#4) (s.takeException e) = .next t ∧
      Resumed s t e (s.pc + if s.thumb then 2#32 else 4#32) :=
  dataRow_resumes (op := .mov) (rn := 0#4) (o := .shImm 0#5 .lsl 14#4) ⟨rfl, rfl⟩
    ((takeException_link s e).trans (by rw [link])) aligned.next legal

/-- `SUBS PC,R14,#n` resumes at the instruction itself, where the link is `n` beyond it. -/
theorem subs_resumes {n : BitVec 8} (link : e.linkOffset s.thumb = rotatedImm 0#4 n) (aligned : AlignedFor s.thumb s.pc)
    (legal : legalMode (psrM s.cpsr) = true) :
    ∃ t, exec (.subImm .al true 14#4 pcNum 0#4 n) (s.takeException e) = .next t ∧ Resumed s t e s.pc := by
  have value : (s.takeException e).dataResult .sub 14#4 (.imm 0#4 n) = s.pc := by
    show (s.takeException e).reg 14#4 - rotatedImm 0#4 n = s.pc
    rw [takeException_link, link, BitVec.add_sub_cancel]
  exact dataRow_resumes (op := .sub) (o := .imm 0#4 n) ⟨rfl, rfl⟩ value aligned legal

end resume

/-- Settles O45: each link is what its return instruction undoes. -/
theorem returnsResume : Obligations.ReturnsResume := by
  rintro s e i resume row legal aligned
  obtain ⟨rfl, rfl, rfl⟩ | ⟨rfl, rfl, rfl⟩ | ⟨rfl, rfl, rfl⟩ | ⟨rfl, rfl, rfl⟩ | ⟨rfl, rfl, rfl⟩ | ⟨rfl, rfl, rfl⟩ := row
  case inl | inr.inl => exact movs_resumes rfl aligned legal
  all_goals exact subs_resumes rfl aligned legal

end Sys2Proof.Machine

/-! Multiplication: the products, and what the six instructions write (R241 to R247). -/

namespace Sys2Proof.Machine

/-! The flags of a multiply (R247). -/

/-- The result of MUL and MLA with its flags: C is a free value, V is kept. -/
def State.mulResult (s : State) (r : Word) : AluResult :=
  ⟨r, bitAt r 31, r == 0#32, bitAt (Config.freeWord s.draws) 0, psrV s.cpsr⟩

/-- The flags of a long multiply, beside its low word: C and V are free values. -/
def State.mullResult (s : State) (p : BitVec 64) : AluResult :=
  ⟨p.extractLsb' 0 32, p.getLsbD 63, p == 0#64, bitAt (Config.freeWord s.draws) 0, bitAt (Config.freeWord s.draws) 1⟩

/-- The state with the flags of a multiply, if S is set: the free values of C and V are one draw. -/
def State.multiplied (s : State) (sf : Bool) (r : AluResult) : State := (s.flagged sf r).draw sf.toNat

theorem mulOp_eq (sf : Bool) (rd : RegNum) (r : Word) (s : State) :
    mulOp sf rd r s = finishReg rd r (s.multiplied sf (s.mulResult r)) := by
  cases sf <;> rfl

theorem mullOp_eq (sf : Bool) (hi lo : RegNum) (p : BitVec 64) (s : State) : mullOp sf hi lo p s =
    finishReg lo (p.extractLsb' 0 32) ((s.multiplied sf (s.mullResult p)).setReg hi (p.extractLsb' 32 32)) := by
  cases sf <;> rfl

section multiplied
variable (s : State) (sf : Bool) (r : AluResult)

@[simp] theorem State.multiplied_mode : (s.multiplied sf r).mode = s.mode := s.flagged_mode sf r

@[simp] theorem State.multiplied_pc : (s.multiplied sf r).pc = s.pc := s.flagged_pc sf r

@[simp] theorem State.multiplied_io : (s.multiplied sf r).io = s.io := s.flagged_io sf r

theorem State.multiplied_onlyChanges : OnlyChanges s (s.multiplied sf r) [] [] := (s.flagged_onlyChanges sf r).draw _

/-- With S the flags are the result's, without it they are kept. -/
theorem State.multiplied_flags :
    if sf then FlagsAre (s.multiplied sf r) r.n r.z r.c r.v else SameFlags s (s.multiplied sf r) := by
  cases sf
  · exact rfl
  · exact ⟨psrN_setFlags .., psrZ_setFlags .., psrC_setFlags .., psrV_setFlags ..⟩

end multiplied

/-! The common tails. -/

/-- MUL and MLA write the register, and with S the flags. -/
theorem mulOp_writes {sf : Bool} {rd : RegNum} {r : Word} {s : State} (hd : rd ≠ pcNum) (below : s.pc < 0xFFFFFFFC#32) :
    ∃ t, mulOp sf rd r s = .next t ∧ t.pc = s.pc + 4#32 ∧ OnlyChanges s t [bank s.mode rd] [] ∧ t.io = s.io ∧
      t.preg (bank s.mode rd) = r ∧
      (if sf then FlagsAre t (negative r) (r == 0#32) (psrC t.cpsr) (psrV s.cpsr) else SameFlags s t) := by
  have next := finishReg_register (v := r) (s := s.multiplied sf (s.mulResult r)) hd (by rwa [State.multiplied_pc])
  rw [State.multiplied_mode, State.multiplied_pc] at next
  refine ⟨_, (mulOp_eq ..).trans next, rfl, ((s.multiplied_onlyChanges sf _).setPReg _ _).setPc _,
    State.multiplied_io .., (State.setPReg_preg ..).trans (if_pos rfl), ?flags⟩
  have flags := s.multiplied_flags sf (s.mulResult r)
  cases sf with
  | false => exact flags
  | true =>
    obtain ⟨n, z, -, v⟩ := flags
    exact ⟨n.trans (bitAt_31 r), z, rfl, v⟩

/-- A pair of registers, written one after the other. -/
theorem OnlyChanges.setPair {s u : State} (h : OnlyChanges s u [] []) (p q : PReg) (v w : Word) :
    OnlyChanges s ((u.setPReg p v).setPReg q w) [p, q] [] :=
  (h.setPReg p v).trans ((OnlyChanges.refl _).setPReg q w)

section long
variable {sf : Bool} {hi lo : RegNum} {p : BitVec 64} {s : State} (hhi : hi ≠ pcNum) (hlo : lo ≠ pcNum)
  (below : s.pc < 0xFFFFFFFC#32)
include hhi hlo below

/-- The flags, RdHi, RdLo, then the next word. -/
theorem mullOp_next : mullOp sf hi lo p s =
    .next ((((s.multiplied sf (s.mullResult p)).setPReg (bank s.mode hi) (p.extractLsb' 32 32)).setPReg
      (bank s.mode lo) (p.extractLsb' 0 32)).setPc (s.pc + 4#32)) := by
  rw [mullOp_eq, State.setReg_of_ne _ _ hhi,
    finishReg_register hlo (by rwa [State.setPReg_pc, State.multiplied_pc]), State.setPReg_mode, State.setPReg_pc,
    State.multiplied_mode, State.multiplied_pc]

/-- The long multiplies write the two halves, and with S the flags of all 64 bits. -/
theorem mullOp_writes (apart : hi ≠ lo) :
    ∃ t, mullOp sf hi lo p s = .next t ∧ t.pc = s.pc + 4#32 ∧ OnlyChanges s t [bank s.mode hi, bank s.mode lo] [] ∧
      t.io = s.io ∧ t.preg (bank s.mode hi) ++ t.preg (bank s.mode lo) = p ∧
      (if sf then FlagsAre t (p.getLsbD 63) (p == 0#64) (psrC t.cpsr) (psrV t.cpsr) else SameFlags s t) := by
  refine ⟨_, mullOp_next hhi hlo below, rfl, ((s.multiplied_onlyChanges sf _).setPair _ _ _ _).setPc _,
    State.multiplied_io .., ?result, ?flags⟩
  case result =>
    have other : bank s.mode lo ≠ bank s.mode hi := fun same => apart ((bank_inj _ hlo hhi).1 same).symm
    rw [State.setPc_preg, State.setPc_preg, State.setPReg_preg, if_neg other, State.setPReg_preg, if_pos rfl,
      State.setPReg_preg, if_pos rfl]
    exact BitVec.extractLsb'_append_extractLsb' (w := 32) (len := 32)
  case flags =>
    have flags := s.multiplied_flags sf (s.mullResult p)
    cases sf with
    | false => exact flags
    | true =>
      obtain ⟨n, z, -, -⟩ := flags
      exact ⟨n, z, rfl, rfl⟩

end long

/-! The long products, as 64 bits of an integer (R243 to R246). -/

theorem unsignedProduct_eq (a b : Word) : unsignedProduct a b = BitVec.ofInt 64 (a.toNat * b.toNat) := by
  rw [unsignedProduct, ← BitVec.ofInt_natCast, Nat.cast_mul]

/-- The accumulator is read unsigned (R244). -/
theorem ofInt_add_toNat (x : Int) (acc : BitVec 64) : BitVec.ofInt 64 (x + acc.toNat) = BitVec.ofInt 64 x + acc := by
  rw [BitVec.ofInt_add, BitVec.ofInt_natCast, BitVec.ofNat_toNat, BitVec.setWidth_eq]

/-- The accumulator is read signed (R246). -/
theorem ofInt_add_toInt (x : Int) (acc : BitVec 64) : BitVec.ofInt 64 (x + acc.toInt) = BitVec.ofInt 64 x + acc := by
  rw [BitVec.ofInt_add, BitVec.ofInt_toInt]

theorem toNat_ofInt_64 (x : Int) : ((BitVec.ofInt 64 x).toNat : Int) = x % 2 ^ 64 := by
  rw [BitVec.toNat_ofInt, Int.toNat_of_nonneg (Int.emod_nonneg _ (by decide))]
  rfl

/-! N and Z of a 64-bit result, from its halves (R247). -/

theorem getLsbD_63_append (h l : Word) : (h ++ l).getLsbD 63 = negative h := by
  rw [BitVec.getLsbD_append, ← bitAt_31]
  rfl

theorem append_beq_zero (h l : Word) : (h ++ l == 0#64) = (h == 0#32 && l == 0#32) := by
  rw [Bool.eq_iff_iff, Bool.and_eq_true, beq_iff_eq, beq_iff_eq, beq_iff_eq]
  constructor
  · intro zero
    have high := congrArg (BitVec.extractLsb' 32 32) zero
    have low := congrArg (BitVec.extractLsb' 0 32) zero
    rw [BitVec.extractLsb'_append_eq_left] at high
    rw [BitVec.extractLsb'_append_eq_right] at low
    exact ⟨high, low⟩
  · rintro ⟨rfl, rfl⟩
    rfl

/-! The restrictions (R247). -/

theorem rd_ne_pc_of_restrictMul {rd rm : RegNum} {others : List RegNum} (h : restrictMul rd rm others = none) :
    rd ≠ pcNum := by
  simp only [restrictMul, firstBroken_cons_none] at h
  obtain ⟨hpc, -⟩ := h
  rintro rfl
  simp at hpc

theorem rdLo_of_restrictMull {hi lo rs rm : RegNum} (h : restrictMull hi lo rs rm = none) : lo ≠ pcNum ∧ hi ≠ lo := by
  simp only [restrictMull, firstBroken_cons_none] at h
  obtain ⟨hpc, overlap, -⟩ := h
  refine ⟨?_, ?_⟩
  · rintro rfl
    simp at hpc
  · rintro rfl
    simp at overlap

/-! The six instructions. -/

/-- Settles O16: both results are one word modulo 2^32, which one tail writes. -/
theorem multiplyResults : Obligations.MultiplyResults := by
  intro c sf rd rn rs rm s below
  refine ⟨fun runs => ?mul, fun runs => ?mla⟩
  case mul =>
    obtain ⟨t, next, pc, frame, io, result, flags⟩ :=
      mulOp_writes (sf := sf) (r := s.reg rm * s.reg rs) (rd_ne_pc_of_restrictMul runs.restriction_none) below
    rw [← result] at flags
    exact ⟨t, (guarded_of_runs runs _).trans next, pc, frame, io, by rw [result, BitVec.toNat_mul], flags⟩
  case mla =>
    obtain ⟨t, next, pc, frame, io, result, flags⟩ :=
      mulOp_writes (sf := sf) (r := s.reg rm * s.reg rs + s.reg rn) (rd_ne_pc_of_restrictMul runs.restriction_none) below
    rw [← result] at flags
    exact ⟨t, (guarded_of_runs runs _).trans next, pc, frame, io,
      by rw [result, BitVec.toNat_add, BitVec.toNat_mul, Nat.mod_add_mod], flags⟩

/-- Settles O17: each row's product is its integer modulo 2^64, and one tail writes it into the two registers. -/
theorem longMultiplyResults : Obligations.LongMultiplyResults := by
  intro c sf hi lo rs rm s below i p row runs
  have product : exec i s = mullOp sf hi lo (BitVec.ofInt 64 p) s ∧ i.restriction = restrictMull hi lo rs rm := by
    obtain ⟨rfl, rfl⟩ | ⟨rfl, rfl⟩ | ⟨rfl, rfl⟩ | ⟨rfl, rfl⟩ := row
    case inl => exact ⟨by rw [← unsignedProduct_eq]; exact guarded_of_runs runs _, rfl⟩
    case inr.inl => exact ⟨by rw [ofInt_add_toNat, ← unsignedProduct_eq]; exact guarded_of_runs runs _, rfl⟩
    case inr.inr.inl => exact ⟨guarded_of_runs runs _, rfl⟩
    case inr.inr.inr => exact ⟨by rw [ofInt_add_toInt]; exact guarded_of_runs runs _, rfl⟩
  obtain ⟨meaning, restricted⟩ := product
  rw [runs.restriction_none] at restricted
  obtain ⟨hlo, apart⟩ := rdLo_of_restrictMull restricted.symm
  obtain ⟨t, next, pc, frame, io, result, flags⟩ := mullOp_writes (sf := sf) (p := BitVec.ofInt 64 p)
    (rdHi_ne_pc_of_restrictMull restricted.symm) hlo below apart
  rw [← result, getLsbD_63_append, append_beq_zero] at flags
  exact ⟨t, meaning.trans next, pc, frame, io, by rw [result, toNat_ofInt_64], flags⟩

end Sys2Proof.Machine

/-! User mode: what it keeps of the other modes (R281, R282). -/

namespace Sys2Proof.Machine

/-! The state an exception entry leaves. -/

/-- What every exception entry leaves: its mode, its vector, I set, ARM state, nothing fetched ahead (R256). -/
def AtVector (t : State) : Prop :=
  ∃ e : Exc, psrM t.cpsr = e.mode.bits ∧ t.pc = e.vector ∧ psrI t.cpsr = true ∧ psrT t.cpsr = false ∧ t.pipe = none

theorem atVector_takeException {u : State} {e : Exc} : AtVector (u.takeException e) :=
  ⟨e, psrM_enter .., rfl, psrI_enter .., psrT_enter .., rfl⟩

theorem atVector_takeReset {u : State} : AtVector u.takeReset := by
  refine ⟨.reset, ?_, rfl, ?_, ?_, rfl⟩ <;> rw [State.takeReset_cpsr]
  · rw [psrM_setFlags, psrM_enter]; rfl
  · rw [psrI_setFlags, psrI_enter]
  · rw [psrT_setFlags, psrT_enter]

/-! The registers User mode cannot name. -/

/-- `u` is in User mode, and every register of the other modes' banks holds what it held in `s` (R22, R282). -/
structure UserKeeps (s u : State) : Prop where
  mode : u.mode = .usr
  banked : ∀ p : PReg, 15 ≤ p.val → u.preg p = s.preg p

/-- The registers of User mode are the first fifteen (R22). -/
theorem bank_usr_lt {i : RegNum} (hi : i ≠ pcNum) : (bank .usr i).val < 15 := by
  revert i; decide

namespace UserKeeps

theorem refl {s : State} (user : s.mode = .usr) : UserKeeps s s := ⟨user, fun _ _ => rfl⟩

variable {s u : State} (h : UserKeeps s u)
include h

/-- What changes neither the mode nor a register keeps the others' registers. -/
theorem congr {v : State} (mode : v.mode = u.mode) (regs : ∀ p, v.preg p = u.preg p) : UserKeeps s v :=
  ⟨mode.trans h.mode, fun p hp => (regs p).trans (h.banked p hp)⟩

theorem setPReg {p : PReg} (hp : p.val < 15) (v : Word) : UserKeeps s (u.setPReg p v) := by
  refine ⟨h.mode, fun q hq => ?_⟩
  have other : p ≠ q := by rintro rfl; omega
  rw [State.setPReg_preg, if_neg other, h.banked q hq]

theorem branchTo (v : Word) : UserKeeps s (u.branchTo v) := h.congr rfl fun _ => rfl

theorem setReg (i : RegNum) (v : Word) : UserKeeps s (u.setReg i v) := by
  by_cases hi : i = pcNum
  · subst hi
    rw [State.setReg_pcNum]
    exact h.branchTo _
  · rw [State.setReg_of_ne _ _ hi, h.mode]
    exact h.setPReg (bank_usr_lt hi) v

theorem writeBase (n : RegNum) (a : Addressing) : UserKeeps s (u.writeBase n a) := by
  unfold State.writeBase
  split
  · exact h
  · exact h.setReg n _

/-- After the flags are written. -/
theorem setFlags (n z c v : Bool) : UserKeeps s (u.setCpsr (psrSetFlags u.cpsr n z c v)) :=
  h.congr (State.mode_congr (psrM_setFlags ..)) fun _ => rfl

theorem load {ld : Load} (hl : ld ∈ [loadWord, loadByte, loadHalf, loadSignedByte, loadSignedHalf]) {a : Word}
    {r : Word × State} (hr : ld u a = some r) : UserKeeps s r.2 := by
  obtain same | ⟨e, same⟩ := load_state hl hr <;> rw [same]
  · exact h
  · exact h.congr rfl fun _ => rfl

theorem store {st : Store} (hs : st ∈ [storeWord, storeByte, storeHalf]) {a v : Word} {t : State}
    (ht : st u a v = some t) : UserKeeps s t := by
  obtain ⟨b, n, rfl⟩ | ⟨e, rfl⟩ := store_state hs ht <;> exact h.congr rfl fun _ => rfl

/-- After a block read or write (R211). -/
theorem sameButMemory {v : State} (k : SameButMemory u v) : UserKeeps s v := h.congr k.mode k.preg

/-- After the registers of a list have been loaded (R213). -/
theorem loadRegs (l : List (RegNum × Word)) : UserKeeps s (loadRegs .usr l u) := by
  refine ⟨(loadRegs_onlyRegs .usr l u).mode.trans h.mode, fun p hp => ?_⟩
  rw [loadRegs_preg_other, h.banked p hp]
  rintro c - hc rfl
  exact absurd (bank_usr_lt hc) (by omega)

end UserKeeps

/-! The ends of an instruction of User mode. -/

/-- An instruction keeps the others' registers, or has entered an exception. -/
def KeepsOrEnters (s t : State) : Prop := UserKeeps s t ∨ AtVector t

section
variable {s u t : State} (h : UserKeeps s u)
include h

theorem UserKeeps.advance (next : advance u = .next t) : KeepsOrEnters s t := by
  obtain ⟨-, rfl⟩ := advance_cases next
  exact .inl (h.congr rfl fun _ => rfl)

theorem UserKeeps.finishReg {d : RegNum} {v : Word} (next : finishReg d v u = .next t) : KeepsOrEnters s t := by
  unfold Machine.finishReg at next
  split at next
  · exact .inl (Host.Outcome.next.inj next ▸ h.setReg d v)
  · exact (h.setReg d v).advance next

/-- User mode has no SPSR to return by (R36, R224). -/
theorem UserKeeps.not_exceptionReturn {v : Word} : exceptionReturn v u ≠ .next t := by
  rw [exceptionReturn_noSpsr (State.currentSpsr_none (by rw [h.mode]; rfl))]
  nofun

theorem UserKeeps.branchOp {imm24 : BitVec 24} (next : branchOp imm24 u = .next t) : KeepsOrEnters s t := by
  obtain ⟨-, rfl⟩ := branchOp_cases next
  exact .inl (h.branchTo _)

end

theorem abortTransfer_enters {n : RegNum} {a : Addressing} {s u t : State} (next : abortTransfer n a u = .next t) :
    KeepsOrEnters s t :=
  .inr (Host.Outcome.next.inj next ▸ atVector_takeException)

section
variable {s t : State} (user : s.mode = .usr)
include user

theorem dataOp_keepsOrEnters {f : Alu} {d : RegNum} {sf : Bool} {a : Word} {o : Operand2}
    (next : dataOp f d sf a o s = .next t) : KeepsOrEnters s t := by
  have self := UserKeeps.refl user
  unfold dataOp writeResult at next
  split at next
  · split at next
    · exact absurd next self.not_exceptionReturn
    · exact .inl (Host.Outcome.next.inj next ▸ self.setReg d _)
  · refine UserKeeps.advance (.setReg ?_ d _) next
    split
    · exact self.setFlags ..
    · exact self

theorem testOp_keepsOrEnters {f : Alu} {a : Word} {o : Operand2} (next : testOp f a o s = .next t) : KeepsOrEnters s t :=
  ((UserKeeps.refl user).setFlags ..).advance next

theorem multiplied_keeps (sf : Bool) (r : AluResult) : UserKeeps s (s.multiplied sf r) := by
  have self := UserKeeps.refl user
  cases sf
  · exact self.congr rfl fun _ => rfl
  · exact (self.setFlags ..).congr rfl fun _ => rfl

theorem mulOp_keepsOrEnters {sf : Bool} {rd : RegNum} {r : Word} (next : mulOp sf rd r s = .next t) :
    KeepsOrEnters s t := by
  rw [mulOp_eq] at next
  exact (multiplied_keeps user ..).finishReg next

theorem mullOp_keepsOrEnters {sf : Bool} {hi lo : RegNum} {p : BitVec 64} (next : mullOp sf hi lo p s = .next t) :
    KeepsOrEnters s t := by
  rw [mullOp_eq] at next
  exact ((multiplied_keeps user ..).setReg ..).finishReg next

theorem mrsOp_keepsOrEnters {spsr : Bool} {d : RegNum} (next : mrsOp spsr d s = .next t) : KeepsOrEnters s t := by
  obtain ⟨w, -, next⟩ := mrsOp_cases next
  exact ((UserKeeps.refl user).congr (v := s.draw 1) rfl fun _ => rfl).finishReg next

/-- MSR writes no bit of M in User mode, and no SPSR (R223, R224). -/
theorem msrOp_keepsOrEnters {spsr : Bool} {mask : BitVec 4} {v : Word} (next : msrOp spsr mask v s = .next t) :
    KeepsOrEnters s t := by
  cases spsr with
  | false =>
    obtain ⟨-, -, -, rfl⟩ := msrCpsr_cases next
    exact .inl ((UserKeeps.refl user).congr (State.mode_congr (psrM_psrWrite (field_msrMask_user user))) fun _ => rfl)
  | true =>
    have stops : msrOp true mask v s = .fault .noSpsr := msrSpsr_noSpsr (by rw [user]; rfl)
    rw [stops] at next
    cases next

theorem bxOp_keepsOrEnters {v : Word} (next : bxOp v s = .next t) : KeepsOrEnters s t := by
  obtain ⟨-, rfl⟩ := bxOp_cases next
  exact .inl ((UserKeeps.refl user).congr (State.mode_congr (psrM_setT ..)) fun _ => rfl)

theorem loadOp_keepsOrEnters {ld : Load} (hl : ld ∈ [loadWord, loadByte, loadHalf, loadSignedByte, loadSignedHalf])
    {n d : RegNum} {a : Addressing} (next : loadOp ld n d a s = .next t) : KeepsOrEnters s t := by
  obtain ⟨-, rfl⟩ | ⟨r, loaded, next⟩ := loadOp_cases next
  · exact .inr atVector_takeException
  · exact (((UserKeeps.refl user).load hl loaded).writeBase n a).finishReg next

theorem storeOp_keepsOrEnters {st : Store} (hs : st ∈ [storeWord, storeByte, storeHalf]) {n : RegNum} {v : Word}
    {a : Addressing} (next : storeOp st n v a s = .next t) : KeepsOrEnters s t := by
  obtain ⟨-, rfl⟩ | ⟨u, stored, next⟩ := storeOp_cases next
  · exact .inr atVector_takeException
  · exact (((UserKeeps.refl user).store hs stored).writeBase n a).advance next

theorem swapOp_keepsOrEnters {ld : Load} {st : Store}
    (hl : ld ∈ [loadWord, loadByte, loadHalf, loadSignedByte, loadSignedHalf])
    (hs : st ∈ [storeWord, storeByte, storeHalf]) {n d m : RegNum} (next : swapOp ld st n d m s = .next t) :
    KeepsOrEnters s t := by
  obtain ⟨-, rfl⟩ | ⟨r, -, -, rfl⟩ | ⟨r, u, loaded, stored, next⟩ := swapOp_cases next
  · exact .inr atVector_takeException
  · exact .inr atVector_takeException
  · exact (((UserKeeps.refl user).load hl loaded).store hs stored).finishReg next

/-- An LDM that answers has no `^`, so the registers it loads are those of User mode (R213, R215). -/
theorem ldmOp_keepsOrEnters {p u sf w : Bool} {n : RegNum} {list : BitVec 16}
    (next : ldmOp p u sf w n list s = .next t) : KeepsOrEnters s t := by
  obtain ⟨saved, ⟨-, aborts⟩ | ⟨vals, -, next⟩⟩ := ldmOp_cases next
  · exact abortTransfer_enters aborts
  have plain : sf = false := by
    rw [← Bool.not_eq_true]
    intro hsf
    obtain ⟨k, hk⟩ := saved hsf
    rw [user] at hk
    cases hk
  subst plain
  have read := (UserKeeps.refl user).sameButMemory (readBlock_state (blockTargets p u w n list s) s).1
  have loaded := (read.loadRegs ((regList list).zip vals)).writeBase n (blockAddressing p u w n list s)
  simp only [finishLdm, Bool.false_and, Bool.false_eq_true, if_false, user] at next
  split at next
  · exact .inl (Host.Outcome.next.inj next ▸ loaded.branchTo _)
  · exact loaded.advance next

theorem stmOp_keepsOrEnters {p u sf w : Bool} {n : RegNum} {list : BitVec 16}
    (next : stmOp p u sf w n list s = .next t) : KeepsOrEnters s t := by
  obtain ⟨-, ⟨-, aborts⟩ | ⟨-, next⟩⟩ := stmOp_cases next
  · exact abortTransfer_enters aborts
  · exact (((UserKeeps.refl user).sameButMemory (writeBlock_state _ s).1).writeBase n _).advance next

/-- A failed condition only advances (R122). -/
theorem guarded_keepsOrEnters {i : Instr} {e : Result} (next : guarded i s e = .next t)
    (effect : e = .next t → KeepsOrEnters s t) : KeepsOrEnters s t := by
  obtain ⟨-, next⟩ | ⟨-, -, next⟩ := guarded_cases next
  · exact (UserKeeps.refl user).advance next
  · exact effect next

/-- Every instruction of User mode keeps the registers of the other modes, or enters an exception. -/
theorem exec_keepsOrEnters {i : Instr} (next : exec i s = .next t) : KeepsOrEnters s t := by
  cases i with
  | andImm | andShImm | andShReg | eorImm | eorShImm | eorShReg | subImm | subShImm | subShReg | rsbImm | rsbShImm | rsbShReg
  | addImm | addShImm | addShReg | adcImm | adcShImm | adcShReg | sbcImm | sbcShImm | sbcShReg | rscImm | rscShImm | rscShReg
  | orrImm | orrShImm | orrShReg | movImm | movShImm | movShReg | bicImm | bicShImm | bicShReg | mvnImm | mvnShImm
  | mvnShReg => exact guarded_keepsOrEnters user next (dataOp_keepsOrEnters user)
  | tstImm | tstShImm | tstShReg | teqImm | teqShImm | teqShReg | cmpImm | cmpShImm | cmpShReg | cmnImm | cmnShImm
  | cmnShReg => exact guarded_keepsOrEnters user next (testOp_keepsOrEnters user)
  | mul | mla => exact guarded_keepsOrEnters user next (mulOp_keepsOrEnters user)
  | umull | umlal | smull | smlal => exact guarded_keepsOrEnters user next (mullOp_keepsOrEnters user)
  | swp | swpb => exact guarded_keepsOrEnters user next (swapOp_keepsOrEnters user (by simp) (by simp))
  | bx => exact guarded_keepsOrEnters user next (bxOp_keepsOrEnters user)
  | mrs => exact guarded_keepsOrEnters user next (mrsOp_keepsOrEnters user)
  | msrReg | msrImm => exact guarded_keepsOrEnters user next (msrOp_keepsOrEnters user)
  | ldrImm | ldrImmPost | ldrReg | ldrRegPost | ldrbImm | ldrbImmPost | ldrbReg | ldrbRegPost | ldrtImm | ldrtReg
  | ldrbtImm | ldrbtReg | ldrsbImm | ldrsbReg =>
    exact guarded_keepsOrEnters user next (loadOp_keepsOrEnters user (by simp))
  | strImm | strImmPost | strReg | strRegPost | strbImm | strbImmPost | strbReg | strbRegPost | strtImm | strtReg
  | strbtImm | strbtReg => exact guarded_keepsOrEnters user next (storeOp_keepsOrEnters user (by simp))
  | ldrhImm | ldrhReg | ldrshImm | ldrshReg =>
    exact guarded_keepsOrEnters user next fun even => loadOp_keepsOrEnters user (by simp) (evenOnly_cases even).2
  | strhImm | strhReg =>
    exact guarded_keepsOrEnters user next fun even => storeOp_keepsOrEnters user (by simp) (evenOnly_cases even).2
  | ldm => exact guarded_keepsOrEnters user next (ldmOp_keepsOrEnters user)
  | stm => exact guarded_keepsOrEnters user next (stmOp_keepsOrEnters user)
  | b => exact guarded_keepsOrEnters user next (UserKeeps.refl user).branchOp
  | bl => exact guarded_keepsOrEnters user next ((UserKeeps.refl user).setReg ..).branchOp
  | swi | undefined | ldc | stc | cdp | mcr | mrc =>
    exact guarded_keepsOrEnters user next fun trap => .inr (Host.Outcome.next.inj trap ▸ atVector_takeException)

end

/-! The status registers in User mode. -/

/-- M, I, F and every SPSR hold what they held. -/
def SamePrivileges (s t : State) : Prop :=
  psrM t.cpsr = psrM s.cpsr ∧ psrI t.cpsr = psrI s.cpsr ∧ psrF t.cpsr = psrF s.cpsr ∧ t.spsr = s.spsr

theorem samePrivileges_of_control {s t : State} (control : SameControl s t) (spsr : t.spsr = s.spsr) :
    SamePrivileges s t :=
  ⟨psrM_of_control control, bitAt_of_control control (by decide), bitAt_of_control control (by decide), spsr⟩

/-- Every instruction of User mode keeps M, I, F and the SPSRs, or enters an exception (R223, R224, R281). -/
theorem Effect.samePrivileges {i : Instr} {s t : State} (effect : Effect i s t) (user : s.mode = .usr) :
    SamePrivileges s t ∨ AtVector t := by
  have unsaved : s.mode.spsrIdx = none := by rw [user]; rfl
  cases effect with
  | follow body next =>
    obtain ⟨-, rfl⟩ := advance_cases next
    exact .inl (samePrivileges_of_control body.control body.spsr)
  | jump body _ next => subst next; exact .inl (samePrivileges_of_control body.control body.spsr)
  | entry e _ next => subst next; exact .inr atVector_takeException
  | ret body next =>
    rw [exceptionReturn_noSpsr (body.currentSpsr.trans (State.currentSpsr_none unsaved))] at next
    cases next
  | exchange _ next =>
    obtain ⟨-, rfl⟩ := bxOp_cases next
    exact .inl ⟨psrM_setT .., psrI_setT .., psrF_setT .., rfl⟩
  | status next =>
    obtain ⟨-, -, -, rfl⟩ := msrCpsr_cases next
    exact .inl (samePrivileges_of_control (control_msrWritten_user user) rfl)
  | saved next => rw [msrSpsr_noSpsr unsaved] at next; cases next

/-- Settles O56: the boundary and the fetch keep the core state or enter an exception, and so does each instruction, its status
registers by `Effect` and its registers by the walk above. -/
theorem userModeConfined : Obligations.UserModeConfined := by
  intro s t userBits hstep
  obtain rfl | ⟨e, u, -, rfl⟩ | ⟨-, i, hexec⟩ := step_cases hstep
  · exact .inr atVector_takeReset
  · exact .inr atVector_takeException
  obtain ⟨regs, -, cpsr, spsr, -⟩ := fetchNext_state s.beginStep
  have user : (fetchNext s.beginStep).2.mode = .usr := State.mode_of_bits (by rw [cpsr]; exact userBits)
  obtain kept | entered := exec_keepsOrEnters user hexec
  case inr => exact .inr entered
  obtain ⟨m, irq, fiq, spsr'⟩ | entered := (exec_effect hexec).samePrivileges user
  case inr => exact .inr entered
  rw [cpsr] at m irq fiq
  refine .inl ⟨m.trans userBits, irq, fiq, spsr'.trans spsr, fun p hp => (kept.banked p hp).trans ?_⟩
  rw [State.preg, regs]
  rfl

end Sys2Proof.Machine
